-- ==== Sys2Proof/Word.lean ====
section
/-! DEFINITION. The widths of the block's values (spec/00_scope.md rule R12) and its small alphabets:
the session's mode, the host operations, the two payload lengths, and the two shapes an instruction
word has. -/

namespace Sys2Proof

/-- `u8` of rule R12. -/
abbrev Byte := BitVec 8

/-- `u16` of rule R12. -/
abbrev U16 := BitVec 16

/-- The 18-bit word `H = (op << 16) | arg` of 30_encoding.md rule R92. -/
abbrev HostWord := BitVec 18

/-- The session's mode (10_state.md rule R21). -/
inductive Mode where
  | passive
  | active
deriving DecidableEq, Repr

/-- The four host operations (30_encoding.md rule R92). -/
inductive HostOp where
  | read
  | wakeup
  | sleep
  | setMode
deriving DecidableEq, Repr

/-- The two values `LEN` can hold (10_state.md rule R27): 6 for an acknowledgement, 30 for a reading
frame. Rule R133 and decision D30 ask that the type shut out every other length. -/
inductive RespLen where
  | ack
  | reading
deriving DecidableEq, Repr

/-- An instruction word as it meets the block: a host operation is the pair of operands that rule R92
tabulates as `H`, every other row of the opcode table is a frame, its bytes in wire order. -/
inductive Encoded where
  | host (h : HostWord)
  | frame (bytes : List Byte)
deriving DecidableEq, Repr

end Sys2Proof
end

