-- ==== Sys2Proof/Config.lean ====
section
/-! DEFINITION. The constants of 00_scope.md rule R8. They are constants of the block, not run-time
inputs. The parameters of rule R9 stand here only as the events the environment offers (log entry 16):
no rule reads their values. -/

namespace Sys2Proof.Config

/-- First marker byte, "B". -/
def mark0 : Byte := 0x42#8

/-- Second marker byte, "M". -/
def mark1 : Byte := 0x4D#8

/-- Opcode of `set_mode`. -/
def opSetMode : Byte := 0xE1#8

/-- Opcode of the passive-mode read request. -/
def opPassiveRead : Byte := 0xE2#8

/-- Opcode shared by `sleep` and `wakeup`. -/
def opSleepWake : Byte := 0xE4#8

/-- `L_READING`: bytes after the marker of a reading frame (90_conflicts.md C4). -/
def lReading : Nat := 30

/-- `L_ACK`: bytes after the marker of an acknowledgement (90_conflicts.md C5). -/
def lAck : Nat := 6

/-- `N_READING`: words in a reading payload. -/
def nReading : Nat := 15

/-- `N_ACK`: words in an acknowledgement payload. -/
def nAck : Nat := 3

/-- `CMD_LEN`: bytes of a command frame, marker included (90_conflicts.md C1). -/
def cmdLen : Nat := 7

/-- `N_FIELDS`: measurement fields of a reading. -/
def nFields : Nat := 12

/-- `T_RESP` = 2.3 s, in milliseconds: the least wait before a response is read. The block models no
time (rule R11): the bound binds whoever offers `wait_done`, and no rule of the model reads it. -/
def tRespMs : Nat := 2300

end Sys2Proof.Config
end

