-- ==== Sys2Proof/Machine/Operands.lean ====
section
/-! DEFINITION. Operand forms and byte order: splitting and rebuilding 16-bit values (30_encoding.md rules
R85, R86), the word decoder (41_word_decoder.md rules R130, R131), frames as byte sequences (rule R80),
and the codes and fields of the host operations (rule R92). -/

namespace Sys2Proof.Machine

/-- `hi(v) = (v >> 8) & 0xFF` (rule R85). -/
def hi (v : U16) : Byte := (v >>> 8).setWidth 8

/-- `lo(v) = v & 0xFF` (rule R85). -/
def lo (v : U16) : Byte := v.setWidth 8

/-- `(high_byte << 8) | low_byte`, both zero-extended (rules R57, R86, R131). -/
def word16 (high low : Byte) : U16 := (high.setWidth 16 <<< 8) ||| low.setWidth 16

/-- `WORDS(p)` of rules R130, R131. The length is even by its type (rule R133). -/
def words {n : Nat} (p : Vector Byte (2 * n)) : Vector U16 n :=
  Vector.ofFn fun i => word16 p[2 * i.val] p[2 * i.val + 1]

/-- The words `W[0..14]` that BUF holds (10_state.md rule R33). They are a function of BUF and no state. -/
def bufWords (buf : Vector Byte 30) : Vector U16 15 := words (n := 15) buf

/-- `L` in words: 3 for an acknowledgement, 15 for a reading frame (rule R80). -/
def lenWords (l : RespLen) : Nat :=
  match l with
  | .ack => Config.nAck
  | .reading => Config.nReading

/-- `L`, the bytes captured after the marker: 6 or 30 (rule R27). -/
def lenBytes (l : RespLen) : Nat :=
  match l with
  | .ack => Config.lAck
  | .reading => Config.lReading

/-- The 5-bit content of `LEN` (rule R27). -/
def lenCode (l : RespLen) : BitVec 5 :=
  match l with
  | .ack => 6
  | .reading => 30

/-- The payload `BUF[0 .. LEN-1]` (rule R115), its even length in its type (rule R133). -/
def capturedPayload (buf : Vector Byte 30) (l : RespLen) : Vector Byte (2 * lenWords l) :=
  match l with
  | .ack => Vector.ofFn fun (i : Fin 6) => buf[i.val]
  | .reading => buf

/-- The marker `[0x42, 0x4D]` (rule R18). -/
def marker : List Byte := [Config.mark0, Config.mark1]

/-- A frame on the wire: the marker, then the payload (rules R80, R83, R84). -/
def wireFrame {n : Nat} (payload : Vector Byte n) : List Byte := marker ++ payload.toList

/-- The bit `MODE` holds, which is also the data field of `set_mode` (rules R21, R175, R176). -/
def modeBit (m : Mode) : U16 :=
  match m with
  | .passive => 0
  | .active => 1

/-- The mode that `arg[0]` names (rule R205). -/
def modeOfArg (arg : U16) : Mode := if arg.getLsbD 0 then .active else .passive

/-- The host operation's code (rule R92). -/
def opCode (op : HostOp) : BitVec 2 :=
  match op with
  | .read => 0
  | .wakeup => 1
  | .sleep => 2
  | .setMode => 3

/-- The operation a code names; all four codes are used (rule R92). -/
def opOfCode (c : BitVec 2) : HostOp :=
  if c = 0 then .read else if c = 1 then .wakeup else if c = 2 then .sleep else .setMode

/-- `H = (op << 16) | arg` (rule R92). -/
def hostWord (op : HostOp) (arg : U16) : HostWord := opCode op ++ arg

/-- `op = H[17:16]` (rule R92). -/
def hostWordOp (h : HostWord) : HostOp := opOfCode (h.extractLsb' 16 2)

/-- `arg = H[15:0]` (rule R92). -/
def hostWordArg (h : HostWord) : U16 := h.setWidth 16

/-- The `k` bytes of a number, the first the most significant (rules R13, R81). -/
def bigEndianBytes : Nat → Nat → List Byte
  | 0, _ => []
  | k + 1, w => BitVec.ofNat 8 (w >>> (8 * k)) :: bigEndianBytes k w

end Sys2Proof.Machine
end

