-- ==== Sys2Proof/Machine/Flags.lean ====
section
/-! DEFINITION. The block's one computed condition: the checksum (42_checksum.md). One sum serves both
directions (rule R149): the 16-bit sum of every byte on the wire that precedes the checksum field. -/

namespace Sys2Proof.Machine

/-- The sum of bytes, each zero-extended to 16 bits, kept to 16 bits (rule R143). -/
def byteSum : List Byte → U16
  | [] => 0
  | b :: bs => b.setWidth 16 + byteSum bs

/-- `MARKSUM`, the sum of the two marker bytes: 0x8F (rule R8; the document prints 0x8C, 90_conflicts.md C2). -/
def markSum : U16 := byteSum marker

/-- `CSUM_RX(p)` of rule R141: the marker and every payload byte but the last two. -/
def csumRx {n : Nat} (p : Vector Byte n) : U16 := markSum + byteSum (p.toList.take (n - 2))

/-- `CSUM_TX(b0..b4)` of rule R145. -/
def csumTx (b0 b1 b2 b3 b4 : Byte) : U16 := byteSum [b0, b1, b2, b3, b4]

/-- `CHECK(p)` of rule R142: the last word equals the sum. -/
def check {n : Nat} (p : Vector Byte (2 * n)) : Bool := (words p).toList.getLast? == some (csumRx p)

end Sys2Proof.Machine
end

