-- ==== Sys2Proof/Machine/Codec.lean ====
section
/-! DEFINITION. The two codecs: the command encoder (44_command_protocol.md rule R171) and the reading codec
(43_reading_codec.md rule R161). Both are pure. -/

namespace Sys2Proof.Machine

/-- `ENCODE(opcode, data)` of rule R171, total on every pair (rule R184). -/
def encodeCommand (opcode : Byte) (data : U16) : Vector Byte 7 :=
  let v := csumTx Config.mark0 Config.mark1 opcode (hi data) (lo data)
  #v[Config.mark0, Config.mark1, opcode, hi data, lo data, hi v, lo v]

/-- `CODEC(w)` of rules R160, R161: `READING[k] = W[k+1]`. -/
def codec (w : Vector U16 15) : Vector U16 12 := Vector.ofFn fun k => w[k.val + 1]

end Sys2Proof.Machine
end

