-- ==== Sys2Proof/Syntax.lean ====
section
/-! DEFINITION. The instructions: one constructor per row of spec/opcode_table.json.

Rule R1 calls the block's instruction set "the four host operations ... and the five wire commands".
The table adds the generic command frame (rule R171) and the two received frame formats (rules R83, R84).
The four host operations take seven rows, because READ splits on MODE and SET_MODE on its argument. -/

namespace Sys2Proof

inductive Instr where
  /-- Row `WAKEUP`: wire command, opcode 0xE4, data 1 (rule R173). -/
  | wakeup
  /-- Row `SLEEP`: wire command, opcode 0xE4, data 0 (rule R174). -/
  | sleep
  /-- Row `SET_MODE_ACTIVE`: wire command, opcode 0xE1, data 1 (rule R175). -/
  | setModeActive
  /-- Row `SET_MODE_PASSIVE`: wire command, opcode 0xE1, data 0 (rule R176). -/
  | setModePassive
  /-- Row `PASSIVE_READ`: wire command, opcode 0xE2, data 0 (rule R177). -/
  | passiveRead
  /-- Row `CMD_GENERIC`: the frame `ENCODE(opcode, data)` of any other pair (rules R171, R184). -/
  | cmdGeneric (opcode : Byte) (data : U16) (checksum : U16)
  /-- Row `READING_FRAME`: a reading frame from the sensor (rule R83). The 30 bytes follow the marker. -/
  | readingFrame (payload : Vector Byte 30)
  /-- Row `ACK_FRAME`: an acknowledgement from the sensor (rule R84). The 6 bytes follow the marker. -/
  | ackFrame (payload : Vector Byte 6)
  /-- Row `READ_ACTIVE`: `host_start(0, arg)` while `MODE` = 1 (rule R201). -/
  | readActive (arg : U16)
  /-- Row `READ_PASSIVE`: `host_start(0, arg)` while `MODE` = 0 (rule R202). -/
  | readPassive (arg : U16)
  /-- Row `WAKEUP_OP`: `host_start(1, arg)` (rule R203). -/
  | wakeupOp (arg : U16)
  /-- Row `SLEEP_OP`: `host_start(2, arg)` (rule R204). -/
  | sleepOp (arg : U16)
  /-- Row `SET_MODE_OP_PASSIVE`: `host_start(3, 0)` (rule R205). -/
  | setModeOpPassive
  /-- Row `SET_MODE_OP_ACTIVE`: `host_start(3, 1)` (rule R205). -/
  | setModeOpActive
  /-- Row `SET_MODE_OP_ILLEGAL`: `host_start(3, arg)` with `arg` not 0 and not 1 (rule R207). -/
  | setModeOpIllegal (arg : U16)
deriving DecidableEq, Repr

end Sys2Proof
end

