-- ==== Sys2Proof/Decode.lean ====
section
/-! DEFINITION. Decoding an instruction word, total, rejecting by name, and the encoder.

A host operation's word decodes in every case, since all four codes are used (rule R92); which of the two
READ rows it is depends on `MODE` (rule R200), so `decode` takes the mode. A frame is told apart by the
marker and by the number of bytes (rule R80); among command frames the five fixed patterns of rule R89 come
before the generic one. The block itself never decodes a received frame's kind from its content (rule R91):
the decoder says which row of the table a word is, and the rows' meanings go by `LEN`. -/

namespace Sys2Proof

open Sys2Proof.Machine

/-- Why a word is no row of the table. -/
inductive DecodeError where
  /-- The frame does not begin with `42 4D` (rule R80). -/
  | noMarker
  /-- No frame kind has this many bytes (rule R80). -/
  | badLength
deriving DecidableEq, Repr

inductive Decoded where
  | ok (i : Instr)
  | rejected (e : DecodeError)
deriving DecidableEq, Repr

/-- The five bytes after the marker of a command frame (rules R82, R88, R89). -/
def decodeCommand (o dh dl ch cl : Byte) : Instr :=
  if [o, dh, dl, ch, cl] = [0xE4#8, 0x00#8, 0x01#8, 0x01#8, 0x74#8] then .wakeup
  else if [o, dh, dl, ch, cl] = [0xE4#8, 0x00#8, 0x00#8, 0x01#8, 0x73#8] then .sleep
  else if [o, dh, dl, ch, cl] = [0xE1#8, 0x00#8, 0x01#8, 0x01#8, 0x71#8] then .setModeActive
  else if [o, dh, dl, ch, cl] = [0xE1#8, 0x00#8, 0x00#8, 0x01#8, 0x70#8] then .setModePassive
  else if [o, dh, dl, ch, cl] = [0xE2#8, 0x00#8, 0x00#8, 0x01#8, 0x71#8] then .passiveRead
  else .cmdGeneric o (word16 dh dl) (word16 ch cl)

/-- The bytes after the marker, told apart by their number: 5, 6 or 30 (rule R80). -/
def decodePayload (p : List Byte) : Decoded :=
  match p with
  | [o, dh, dl, ch, cl] => .ok (decodeCommand o dh dl ch cl)
  | p =>
    if h : p.toArray.size = 6 then .ok (.ackFrame ⟨p.toArray, h⟩)
    else if h : p.toArray.size = 30 then .ok (.readingFrame ⟨p.toArray, h⟩)
    else .rejected .badLength

def decodeFrame (bs : List Byte) : Decoded :=
  match bs with
  | b0 :: b1 :: p => if b0 = 0x42#8 ∧ b1 = 0x4D#8 then decodePayload p else .rejected .noMarker
  | _ => .rejected .badLength

/-- `host_start(op, arg)` as a row of the table (rules R92, R93, R200). -/
def decodeHost (m : Mode) (h : HostWord) : Instr :=
  let arg := hostWordArg h
  match hostWordOp h with
  | .read => match m with
    | .active => .readActive arg
    | .passive => .readPassive arg
  | .wakeup => .wakeupOp arg
  | .sleep => .sleepOp arg
  | .setMode =>
    if arg = 0 then .setModeOpPassive
    else if arg = 1 then .setModeOpActive
    else .setModeOpIllegal arg

/-- The instruction a word is, while `MODE` is `m`. -/
def decode (m : Mode) (w : Encoded) : Decoded :=
  match w with
  | .host h => .ok (decodeHost m h)
  | .frame bs => decodeFrame bs

/-- The word of an instruction, written from the table's rows. -/
def encode (i : Instr) : Encoded :=
  match i with
  | .wakeup => .frame [0x42, 0x4D, 0xE4, 0x00, 0x01, 0x01, 0x74]
  | .sleep => .frame [0x42, 0x4D, 0xE4, 0x00, 0x00, 0x01, 0x73]
  | .setModeActive => .frame [0x42, 0x4D, 0xE1, 0x00, 0x01, 0x01, 0x71]
  | .setModePassive => .frame [0x42, 0x4D, 0xE1, 0x00, 0x00, 0x01, 0x70]
  | .passiveRead => .frame [0x42, 0x4D, 0xE2, 0x00, 0x00, 0x01, 0x71]
  | .cmdGeneric o d c => .frame [0x42, 0x4D, o, hi d, lo d, hi c, lo c]
  | .readingFrame p => .frame (0x42 :: 0x4D :: p.toList)
  | .ackFrame p => .frame (0x42 :: 0x4D :: p.toList)
  | .readActive arg => .host (hostWord .read arg)
  | .readPassive arg => .host (hostWord .read arg)
  | .wakeupOp arg => .host (hostWord .wakeup arg)
  | .sleepOp arg => .host (hostWord .sleep arg)
  | .setModeOpPassive => .host (hostWord .setMode 0)
  | .setModeOpActive => .host (hostWord .setMode 1)
  | .setModeOpIllegal arg => .host (hostWord .setMode arg)

/-- A word of the opcode table, given as one number (log entry 12). A host row is 18 bits, `H` itself. Every
other row is one number over the wire bits, wire byte 0 the most significant (rules R13, R81). A number that does
not fit its width is no word of the table, and becomes an empty frame, which the decoder rejects. -/
def tableWord (nbits w : Nat) : Encoded :=
  if nbits ≤ 24 ∧ w < 2 ^ 18 then .host (BitVec.ofNat 18 w)
  else if w < 2 ^ nbits then .frame (bigEndianBytes ((nbits + 7) / 8) w)
  else .frame []

/-- The host's question: the row a table word decodes to. `MODE` is as reset leaves it, Active (log entry 7). -/
def decodeTableWord (nbits w : Nat) : Option Instr :=
  match decode .active (tableWord nbits w) with
  | .ok i => some i
  | .rejected _ => none

end Sys2Proof
end

