-- ==== Sys2Proof/Machine/State.lean ====
section
/-! DEFINITION. The state, the inputs that drive it, and the reasons a step can stop.

The first seventeen fields are the record of 10_state.md rule R20. The last three are the environment that
the block meets through events: the two byte streams (20_memory.md rules R51, R53) and the inputs still to come. -/

namespace Sys2Proof.Machine

/-- `PHASE` (10_state.md rule R22). -/
inductive Phase where
  | idle
  | tx
  | wait
  | hunt
  | capture
deriving DecidableEq, Repr

/-- `STATUS` (10_state.md rule R38, 60_exceptions.md rule R230). -/
inductive Status where
  | ok
  | usageError
  | sensorError
  | checksumMismatch
deriving DecidableEq, Repr

/-- The spec defines no fault: 93_implementation_defined.md part 1 says "No item is treated as `fault`: the
document defines no fault for any of them". The three error kinds end an operation and the block goes on. No step raises a
fault, so the type has no constructor. -/
inductive Fault where
deriving DecidableEq, Repr

/-- Why a step is refused. -/
inductive Refusal where
  /-- Raised by `exec` for a row that has no meaning yet: no row. Safe. -/
  | notModelled (mnemonic : String)
  /-- Raised by a host operation offered while `PHASE` is not `IDLE`: "undefined and must be excluded by
  construction" (45_session.md rule R208, 93_implementation_defined.md I1). Safe. -/
  | hostStartWhileBusy
  /-- Raised by one of the five wire commands offered while `PHASE` is not `IDLE`: a request is loaded only in the `host_start`
  step (44_command_protocol.md rule R187), which has no step then (rule R208). Safe. -/
  | commandWhileBusy
  /-- Raised by `step` for a frame that is no row of the opcode table. Safe. -/
  | undecodable (e : DecodeError)
deriving DecidableEq, Repr

/-- What the host and the environment can do next: the seven events of 10_state.md rule R40 and the sensor's
own act of sending (20_memory.md rule R51).

`instr (.host H)` is the event `host_start(op, arg)`. `instr (.frame bytes)` is a whole frame taken as one
instruction (log entries 8 and 11). `rxByte` carries no byte: it hands over the head of `rx` (rule R51). -/
inductive Input where
  | instr (w : Encoded)
  | txAccept
  | waitDone
  | rxByte
  | rxTimeout
  | ioFault
  | reset
  | sensorByte (b : Byte)
deriving DecidableEq, Repr

structure State where
  /-- `MODE` (rule R21). -/
  mode : Mode
  /-- `PHASE` (rule R22). -/
  phase : Phase
  /-- `OP` (rule R23). -/
  op : HostOp
  /-- `REQ_MODE` (rule R24). -/
  reqMode : Mode
  /-- `CMD_OPCODE` (rule R25). -/
  cmdOpcode : Byte
  /-- `CMD_DATA` (rule R25). -/
  cmdData : U16
  /-- `EXPECT` (rule R26). -/
  expect : Bool
  /-- `LEN` (rule R27). -/
  len : RespLen
  /-- `TXBUF[0..6]` (rule R28). -/
  txbuf : Vector Byte 7
  /-- `TXI`, range 0..7 (rule R29). -/
  txi : Fin 8
  /-- `PREV42` (rule R30). -/
  prev42 : Bool
  /-- `CNT`, range 0..30 (rule R31). -/
  cnt : Fin 31
  /-- `BUF[0..29]` (rule R32). -/
  buf : Vector Byte 30
  /-- `DONE` (rule R37). -/
  done : Bool
  /-- `STATUS` (rule R38). -/
  status : Status
  /-- `RVALID` (rule R39). -/
  rvalid : Bool
  /-- `READING[0..11]` (rule R34). -/
  reading : Vector U16 12
  /-- `RX`: bytes the sensor has sent and the block has not consumed, the head first (rule R51). -/
  rx : List Byte
  /-- `TXS`: bytes the block has handed to the transport, the oldest first (rule R53). -/
  txs : List Byte
  /-- The inputs still to be offered, the next one first (log entry 1). -/
  inbox : List Input
deriving DecidableEq, Repr

/-- The state after reset (10_state.md rule R44, 70_reset_and_hazards.md rule R270), with both streams empty and
nothing offered (log entries 1 and 3). -/
def State.reset : State where
  mode := .active
  phase := .idle
  op := .read
  reqMode := .active
  cmdOpcode := 0x00
  cmdData := 0x0000
  expect := false
  len := .reading
  txbuf := Vector.replicate 7 0x00
  txi := 0
  prev42 := false
  cnt := 0
  buf := Vector.replicate 30 0x00
  done := false
  status := .ok
  rvalid := false
  reading := Vector.replicate 12 0x0000
  rx := []
  txs := []
  inbox := []

end Sys2Proof.Machine
end

