-- ==== Sys2Proof/Machine/Ops.lean ====
section
/-! DEFINITION. The shared operations: the outputs (10_state.md rule R42), access to BUF (00_scope.md rule R14),
and the beginning and end of an operation (rules R187, R200, R207, R210, R111).

The block has no exceptions. Ending an operation with an error kind stands in their place (60_exceptions.md
rule R239): `complete` and `usageError` are the whole of it, and there is no return (rule R241). -/

namespace Sys2Proof.Machine

/-! ### Codes of the enumerated registers -/

/-- The 3-bit content of `PHASE` (rule R22). -/
def phaseCode (p : Phase) : BitVec 3 :=
  match p with
  | .idle => 0
  | .tx => 1
  | .wait => 2
  | .hunt => 3
  | .capture => 4

/-- The 2-bit content of `STATUS` (rules R38, R230). -/
def statusCode (st : Status) : BitVec 2 :=
  match st with
  | .ok => 0
  | .usageError => 1
  | .sensorError => 2
  | .checksumMismatch => 3

/-! ### Outputs (rule R42) -/

def busy (s : State) : Bool := s.phase != .idle

def txValid (s : State) : Bool := s.phase == .tx

/-- `tx_data = TXBUF[TXI]`; there is no cell 7. -/
def txData (s : State) : Option Byte := s.txbuf[s.txi.val]?

def rxReady (s : State) : Bool := s.phase == .hunt || s.phase == .capture

def waiting (s : State) : Bool := s.phase == .wait

def doneOut (s : State) : Bool := s.done

def statusOut (s : State) : BitVec 2 := statusCode s.status

/-- `mode = MODE`: 1 is Active, 0 is Passive (rule R21). -/
def modeOut (s : State) : Bool := s.mode == .active

/-- `reading`: absent while `RVALID` = 0 (rules R34, R39). -/
def readingOut (s : State) : Option (Vector U16 12) := if s.rvalid then some s.reading else none

/-! ### BUF as memory (rule R14) -/

/-- `MemRead(addr, 1)`: `BUF[addr]`; no cell 30 or above exists. -/
def memRead8 (s : State) (addr : Nat) : Option Byte := s.buf[addr]?

/-- `MemRead(addr, 2)`: the big-endian value of two cells. -/
def memRead16 (s : State) (addr : Nat) : Option U16 :=
  match memRead8 s addr, memRead8 s (addr + 1) with
  | some b0, some b1 => some (word16 b0 b1)
  | _, _ => none

/-- `MemWrite(addr, 1, v)`: `BUF[addr] <- v`. -/
def memWrite8 (addr : Nat) (v : Byte) (s : State) : State := { s with buf := s.buf.setIfInBounds addr v }

/-! ### Beginning an operation -/

/-- The common start of `host_start`: the last result is cleared and the operation latched (rule R200). -/
def latch (op : HostOp) (s : State) : State :=
  { s with done := false, status := .ok, rvalid := false, op := op }

/-- `LOAD_CMD` of rule R187. `resp` is the response the request expects: `some len` is `expect` = 1 with that
`len`, `none` is `expect` = 0, which leaves `LEN` as it was. -/
def loadCmd (opcode : Byte) (data : U16) (resp : Option RespLen) (s : State) : State :=
  { s with
    cmdOpcode := opcode
    cmdData := data
    expect := resp.isSome
    len := resp.getD s.len
    txbuf := encodeCommand opcode data
    txi := 0
    phase := .tx }

/-- Entering `HUNT` (rule R111): a hunt remembers no earlier byte. -/
def enterHunt (s : State) : State := { s with phase := .hunt, prev42 := false, cnt := 0 }

/-- A step that exists only in `IDLE`. -/
def whenIdle (why : Refusal) (f : State → State) (s : State) : Host.Outcome State Fault Refusal :=
  match s.phase with
  | .idle => .next (f s)
  | .tx => .refused why
  | .wait => .refused why
  | .hunt => .refused why
  | .capture => .refused why

/-! ### Ending an operation -/

/-- `complete(st)` of rule R210: the end of every operation that left `IDLE`, with success or with an error
(rule R239). -/
def complete (st : Status) (s : State) : State :=
  { s with
    phase := .idle
    done := true
    status := st
    mode := if st = .ok ∧ s.op = .setMode then s.reqMode else s.mode
    reading := if st = .ok ∧ s.op = .read then codec (bufWords s.buf) else s.reading
    rvalid := if st = .ok ∧ s.op = .read then true else s.rvalid }

/-- The rejected argument of `SET_MODE` (rules R207, R231). -/
def usageError (s : State) : State := { s with done := true, status := .usageError, phase := .idle }

end Sys2Proof.Machine
end

