-- ==== Sys2Proof/Machine/Session.lean ====
section
/-! DEFINITION. The four host operations (45_session.md rules R200 to R207), in the seven rows of the opcode
table. Each meaning is the event `host_start(op, arg)`: one step, which dispatches on `MODE` and `arg` as rule R200
says. It has a step in `IDLE` only (rule R208). -/

namespace Sys2Proof.Machine

/-- Rule R201: Active-mode READ hunts at once and sends nothing. -/
def startReadActive (s : State) : State := enterHunt { s with len := .reading }

/-- Rule R202: Passive-mode READ sends PASSIVE_READ. -/
def startReadPassive (s : State) : State := loadCmd Config.opPassiveRead 0x0000 (some .reading) s

/-- Rule R203: WAKEUP expects no response and leaves `LEN` alone. -/
def startWakeup (s : State) : State := loadCmd Config.opSleepWake 0x0001 none s

/-- Rule R204. -/
def startSleep (s : State) : State := loadCmd Config.opSleepWake 0x0000 (some .ack) s

/-- Rule R205. -/
def startSetMode (arg : U16) (s : State) : State :=
  loadCmd Config.opSetMode arg (some .ack) { s with reqMode := modeOfArg arg }

/-- The `host_start` step of rule R200, from `IDLE`. -/
def hostStart (op : HostOp) (arg : U16) (s : State) : State :=
  let s1 := latch op s
  match op with
  | .read => match s.mode with
    | .active => startReadActive s1
    | .passive => startReadPassive s1
  | .wakeup => startWakeup s1
  | .sleep => startSleep s1
  | .setMode => if arg = 0x0000 ∨ arg = 0x0001 then startSetMode arg s1 else usageError s1

/-- Row `READ_ACTIVE` (rule R201). The two READ rows are one word, and the block tells them apart by `MODE`
(rule R200, log entry 7). -/
def execReadActive (arg : U16) (s : State) : Host.Outcome State Fault Refusal :=
  whenIdle .hostStartWhileBusy (hostStart .read arg) s

/-- Row `READ_PASSIVE` (rule R202). -/
def execReadPassive (arg : U16) (s : State) : Host.Outcome State Fault Refusal :=
  whenIdle .hostStartWhileBusy (hostStart .read arg) s

/-- Row `WAKEUP_OP` (rule R203). -/
def execWakeupOp (arg : U16) (s : State) : Host.Outcome State Fault Refusal :=
  whenIdle .hostStartWhileBusy (hostStart .wakeup arg) s

/-- Row `SLEEP_OP` (rule R204). -/
def execSleepOp (arg : U16) (s : State) : Host.Outcome State Fault Refusal :=
  whenIdle .hostStartWhileBusy (hostStart .sleep arg) s

/-- Row `SET_MODE_OP_PASSIVE` (rule R205 with `arg` = 0). -/
def execSetModeOpPassive (s : State) : Host.Outcome State Fault Refusal :=
  whenIdle .hostStartWhileBusy (hostStart .setMode 0x0000) s

/-- Row `SET_MODE_OP_ACTIVE` (rule R205 with `arg` = 1). -/
def execSetModeOpActive (s : State) : Host.Outcome State Fault Refusal :=
  whenIdle .hostStartWhileBusy (hostStart .setMode 0x0001) s

/-- Row `SET_MODE_OP_ILLEGAL` (rule R207). -/
def execSetModeOpIllegal (arg : U16) (s : State) : Host.Outcome State Fault Refusal :=
  whenIdle .hostStartWhileBusy (hostStart .setMode arg) s

end Sys2Proof.Machine
end

