-- ==== Sys2Proof/Machine/Transmit.lean ====
section
/-! DEFINITION. The phases `TX` and `WAIT` (44_command_protocol.md rules R178 to R180). -/

namespace Sys2Proof.Machine

/-- `tx(b)` and `TXI <- TXI + 1`: the transmit stream grows at its tail (20_memory.md rule R53), common to rules R178
and R179. -/
def sendByte (b : Byte) (s : State) : State := { s with txs := s.txs ++ [b], txi := s.txi + 1 }

/-- The event `tx_accept`: rules R178 (`TXI` < 6) and R179 (`TXI` = 6) in phase `TX`. In every other phase, and
at `TXI` = 7, no rule gives a step, and no state changes (10_state.md rule R41). -/
def txAccept (s : State) : State :=
  match s.phase, txData s with
  | .tx, some b =>
    if s.txi.val < 6 then sendByte b s
    else if s.expect then { sendByte b s with phase := .wait }
    else complete .ok (sendByte b s)
  | _, _ => s

/-- The event `wait_done`: rule R180 in phase `WAIT`, no step elsewhere (rule R41). -/
def waitDone (s : State) : State :=
  match s.phase with
  | .wait => enterHunt s
  | .idle => s
  | .tx => s
  | .hunt => s
  | .capture => s

/-- The transport accepts `n` bytes one after the other. -/
def acceptBytes : Nat → State → State
  | 0, s => s
  | n + 1, s => acceptBytes n (txAccept s)

/-- The transport's `write(bytes)` of a whole request: the seven `tx_accept` steps that are "their byte-level
form" (rules R53, R56). -/
def writeRequest (s : State) : State := acceptBytes Config.cmdLen s

end Sys2Proof.Machine
end

