-- ==== Sys2Proof/Machine/Command.lean ====
section
/-! DEFINITION. The wire commands (44_command_protocol.md rules R171 to R177).

A wire command is the request of the one host operation that rule R88 names for it. Its meaning here is a run of that
operation's own steps, taken as one step: `host_start` (rule R200), then the transport takes the seven bytes as one `write`
(rules R53, R56). That is where the block stops needing only itself: `WAKEUP` is then complete, and the others wait for
their response (rule R179). Log entry 8 says what this choice adds. -/

namespace Sys2Proof.Machine

/-- The start of an operation and the sending of its whole request. -/
def sendRequest (op : HostOp) (arg : U16) (s : State) : State := writeRequest (hostStart op arg s)

/-- Row `WAKEUP` (rule R173). -/
def execWakeup (s : State) : Host.Outcome State Fault Refusal :=
  whenIdle .commandWhileBusy (sendRequest .wakeup 0x0000) s

/-- Row `SLEEP` (rule R174). -/
def execSleep (s : State) : Host.Outcome State Fault Refusal :=
  whenIdle .commandWhileBusy (sendRequest .sleep 0x0000) s

/-- Row `SET_MODE_ACTIVE` (rule R175). -/
def execSetModeActive (s : State) : Host.Outcome State Fault Refusal :=
  whenIdle .commandWhileBusy (sendRequest .setMode 0x0001) s

/-- Row `SET_MODE_PASSIVE` (rule R176). -/
def execSetModePassive (s : State) : Host.Outcome State Fault Refusal :=
  whenIdle .commandWhileBusy (sendRequest .setMode 0x0000) s

/-- `PASSIVE_READ` "is sent only by `READ` while `MODE` = 0" (rule R177). While `MODE` = 1 the block has no step that sends
it, so the offer is not taken and no state changes (rule R41, log entry 8). -/
def sendPassiveRead (s : State) : State :=
  match s.mode with
  | .passive => sendRequest .read 0x0000 s
  | .active => s

/-- Row `PASSIVE_READ` (rule R177). -/
def execPassiveRead (s : State) : Host.Outcome State Fault Refusal :=
  whenIdle .commandWhileBusy sendPassiveRead s

/-- Row `CMD_GENERIC` (rules R171, R184). The row is the result of the pure function `ENCODE`, `encodeCommand opcode data`,
which depends on nothing but its operands and writes nothing: it is in the word, and in no register. The block passes the
encoder the five defined pairs only (rule R184) and sends no other frame (rule R90), so no state changes, in any phase
(log entry 9). -/
def execCmdGeneric (_opcode : Byte) (_data : U16) (s : State) : Host.Outcome State Fault Refusal := .next s

end Sys2Proof.Machine
end

