-- ==== Sys2Proof/Machine/FrameSync.lean ====
section
/-! DEFINITION. The frame synchronizer: the phases `HUNT` and `CAPTURE` (40_frame_sync.md rules R111 to R115), and
the transport handing over received bytes (20_memory.md rules R51, R52). -/

namespace Sys2Proof.Machine

/-- The `HUNT` step of rule R112. -/
def huntStep (b : Byte) (s : State) : State :=
  if s.prev42 ∧ b = Config.mark1 then { s with phase := .capture, cnt := 0, prev42 := false }
  else { s with prev42 := b == Config.mark0 }

/-- `BUF[CNT] <- b; CNT <- CNT + 1`, common to rules R114 and R115. -/
def storeByte (b : Byte) (s : State) : State :=
  { memWrite8 s.cnt.val b s with cnt := s.cnt + 1 }

/-- The status a full payload gives (rule R115). -/
def verdict (s : State) : Status :=
  if check (capturedPayload s.buf s.len) then .ok else .checksumMismatch

/-- The `CAPTURE` step: rule R114 while bytes are missing, rule R115 for the last one. Past `LEN` no rule gives
a step (rule R41; no such state is reachable, rule R45). -/
def captureStep (b : Byte) (s : State) : State :=
  if s.cnt.val + 1 < lenBytes s.len then storeByte b s
  else if s.cnt.val + 1 = lenBytes s.len then complete (verdict (storeByte b s)) (storeByte b s)
  else s

/-- The event `rx_byte(b)`. -/
def rxByte (b : Byte) (s : State) : State :=
  match s.phase with
  | .hunt => huntStep b s
  | .capture => captureStep b s
  | .idle => s
  | .tx => s
  | .wait => s

/-- Whether `rx_byte` has a step (rules R41, R52, R114, R115). -/
def acceptsByte (s : State) : Bool :=
  match s.phase with
  | .hunt => true
  | .capture => decide (s.cnt.val + 1 ≤ lenBytes s.len)
  | .idle => false
  | .tx => false
  | .wait => false

/-- The transport offers the head of `RX`. Where `rx_byte` has no step "the byte stays in the transport"
(rule R41), and an empty queue offers nothing. -/
def takeRxByte (s : State) : State :=
  match s.rx with
  | [] => s
  | b :: rest => if acceptsByte s then rxByte b { s with rx := rest } else s

/-- The transport hands over the queue `bs` byte by byte for as long as the block takes bytes, and keeps the
rest. -/
def handOver : List Byte → State → State
  | [], s => { s with rx := [] }
  | b :: bs, s => if acceptsByte s then handOver bs (rxByte b s) else { s with rx := b :: bs }

end Sys2Proof.Machine
end

