-- ==== Sys2Proof/Machine/Receive.lean ====
section
/-! DEFINITION. The received frames (30_encoding.md rules R83, R84).

The sensor sends the whole frame, and the transport hands over what is queued for as long as the block takes bytes
(20_memory.md rules R51, R52). Which format the block reads comes from `LEN`, never from the frame (rule R91), so the
two rows differ in the bytes they carry and in nothing else. Log entry 11 says what this choice adds. -/

namespace Sys2Proof.Machine

/-- The frame joins the queue's tail and the queue is handed over from its head. -/
def receive (bytes : List Byte) (s : State) : State := handOver (s.rx ++ bytes) s

/-- Row `READING_FRAME` (rules R83, R112 to R115, R142, R161). -/
def execReadingFrame (payload : Vector Byte 30) (s : State) : Host.Outcome State Fault Refusal :=
  .next (receive (wireFrame payload) s)

/-- Row `ACK_FRAME` (rules R84, R112 to R115, R142, R183). -/
def execAckFrame (payload : Vector Byte 6) (s : State) : Host.Outcome State Fault Refusal :=
  .next (receive (wireFrame payload) s)

end Sys2Proof.Machine
end

