-- ==== Sys2Proof/Machine/Dispatch.lean ====
section
/-! DEFINITION. The meaning of each instruction: one arm per constructor of Instr. -/

namespace Sys2Proof.Machine

def exec (i : Instr) (s : State) : Host.Outcome State Fault Refusal :=
  match i with
  | .wakeup => Sys2Proof.Machine.execWakeup s
  | .sleep => Sys2Proof.Machine.execSleep s
  | .setModeActive => Sys2Proof.Machine.execSetModeActive s
  | .setModePassive => Sys2Proof.Machine.execSetModePassive s
  | .passiveRead => Sys2Proof.Machine.execPassiveRead s
  | .cmdGeneric opcode data _ => Sys2Proof.Machine.execCmdGeneric opcode data s
  | .readingFrame payload => Sys2Proof.Machine.execReadingFrame payload s
  | .ackFrame payload => Sys2Proof.Machine.execAckFrame payload s
  | .readActive arg => Sys2Proof.Machine.execReadActive arg s
  | .readPassive arg => Sys2Proof.Machine.execReadPassive arg s
  | .wakeupOp arg => Sys2Proof.Machine.execWakeupOp arg s
  | .sleepOp arg => Sys2Proof.Machine.execSleepOp arg s
  | .setModeOpPassive => Sys2Proof.Machine.execSetModeOpPassive s
  | .setModeOpActive => Sys2Proof.Machine.execSetModeOpActive s
  | .setModeOpIllegal arg => Sys2Proof.Machine.execSetModeOpIllegal arg s

end Sys2Proof.Machine
end

