-- ==== Sys2Proof/Machine/Events.lean ====
section
/-! DEFINITION. The remaining events: timeout, I/O fault, reset, and the sensor sending a byte. -/

namespace Sys2Proof.Machine

/-- The event `rx_timeout` as the block sees it: rules R116 (`HUNT`) and R117 (`CAPTURE`); elsewhere it "is lost to
the block" (rule R236). -/
def rxTimeout (s : State) : State :=
  match s.phase with
  | .hunt => complete .sensorError s
  | .capture => complete .sensorError s
  | .idle => s
  | .tx => s
  | .wait => s

/-- The transport's timer runs out: "The environment may offer it only when `RX` is empty" (rule R54), so with bytes
queued nothing is offered (log entry 6). -/
def takeRxTimeout (s : State) : State :=
  match s.rx with
  | [] => rxTimeout s
  | _ :: _ => s

/-- The event `io_fault`: rules R186 (`TX`) and R118 (`HUNT`, `CAPTURE`); elsewhere it "is lost to the block"
(rules R55, R236). -/
def ioFault (s : State) : State :=
  match s.phase with
  | .tx => complete .sensorError s
  | .hunt => complete .sensorError s
  | .capture => complete .sensorError s
  | .idle => s
  | .wait => s

/-- The event `reset` (rule R270): every element of the block's state, and nothing of the environment (rule R271). -/
def reset (s : State) : State := { State.reset with rx := s.rx, txs := s.txs, inbox := s.inbox }

/-- The sensor appends a byte to `RX`, "at any time, in any phase" (rule R51). -/
def sensorByte (b : Byte) (s : State) : State := { s with rx := s.rx ++ [b] }

end Sys2Proof.Machine
end

