-- ==== Sys2Proof/Machine/Step.lean ====
section
/-! DEFINITION. One step: the next input is taken off the inbox and acted on (00_scope.md rule R10, 10_state.md
rules R40, R41). -/

namespace Sys2Proof.Machine

/-- A word offered to the block: decoded under the mode the block is in, then executed. -/
def runWord (w : Encoded) (s : State) : Host.Outcome State Fault Refusal :=
  match decode s.mode w with
  | .ok i => exec i s
  | .rejected e => .refused (.undecodable e)

/-- The effect of one input. An event that has no step in the phase it meets changes nothing (rule R41). -/
def take (e : Input) (s : State) : Host.Outcome State Fault Refusal :=
  match e with
  | .instr w => runWord w s
  | .txAccept => .next (txAccept s)
  | .waitDone => .next (waitDone s)
  | .rxByte => .next (takeRxByte s)
  | .rxTimeout => .next (takeRxTimeout s)
  | .ioFault => .next (ioFault s)
  | .reset => .next (reset s)
  | .sensorByte b => .next (sensorByte b s)

/-- One step of the machine. While nothing is offered nothing changes: the block waits, in `IDLE` for `host_start`
(rule R270), in another phase for an event that may never come (rule R284). -/
def step (s : State) : Host.Outcome State Fault Refusal :=
  match s.inbox with
  | [] => .next s
  | e :: rest => take e { s with inbox := rest }

/-- The word becomes the next input (log entry 15). -/
def State.withFetchWord (s : State) (nbits w : Nat) : State :=
  { s with inbox := .instr (tableWord nbits w) :: s.inbox }

end Sys2Proof.Machine
end

