-- ==== Sys2Proof/Machine/Sync.lean ====
section
/-! DEFINITION. The synchronizer as a function of its input (40_frame_sync.md rule R120), written as that rule writes
it, and the block's own steps over the same input, so that the two can be compared. -/

namespace Sys2Proof.Machine

/-- An input offered while `PHASE` is `HUNT` or `CAPTURE` (rule R120). -/
inductive SyncEvent where
  | byte (b : Byte)
  | timeout
  | fault
deriving DecidableEq, Repr

/-- What `SYNC(L, s)` returns. The last two are rule R120's "not terminated". -/
inductive SyncResult where
  | payload (bytes : List Byte)
  | sensorError
  | stillHunting
  | stillCapturing
deriving DecidableEq, Repr

def SyncEvent.byte? (e : SyncEvent) : Option Byte :=
  match e with
  | .byte b => some b
  | .timeout => none
  | .fault => none

/-- `s[k-1] = byte(0x42)`, `s[k] = byte(0x4D)`, `k >= 1`, and no timeout or fault at an index up to `k`. -/
def markerEndsAt (s : List SyncEvent) (k : Nat) : Bool :=
  decide (1 ≤ k) && s[k - 1]? == some (.byte Config.mark0) && s[k]? == some (.byte Config.mark1)
    && (s.take (k + 1)).all (fun e => e.byte?.isSome)

/-- The index of the first timeout or fault. -/
def firstFailure (s : List SyncEvent) : Option Nat := s.findIdx? (fun e => e.byte?.isNone)

/-- `SYNC(L, s)` of rule R120: the result and the number of events consumed. -/
def syncSpec (l : Nat) (s : List SyncEvent) : SyncResult × Nat :=
  match (List.range s.length).find? (markerEndsAt s) with
  | none =>
    match firstFailure s with
    | some j => (.sensorError, j + 1)
    | none => (.stillHunting, s.length)
  | some k =>
    let p := (s.drop (k + 1)).take l
    match firstFailure p with
    | some j => (.sensorError, k + 1 + j + 1)
    | none =>
      if p.length = l then (.payload (p.filterMap SyncEvent.byte?), k + 1 + l)
      else (.stillCapturing, s.length)

/-- One of the block's steps on such an input. -/
def syncStep (e : SyncEvent) (s : State) : State :=
  match e with
  | .byte b => rxByte b s
  | .timeout => rxTimeout s
  | .fault => ioFault s

/-- The block's steps over a list of inputs for as long as `PHASE` is `HUNT` or `CAPTURE`: the state reached and the
number of inputs consumed. -/
def syncRun : List SyncEvent → State → State × Nat
  | [], s => (s, 0)
  | e :: es, s =>
    if rxReady s then
      let r := syncRun es (syncStep e s)
      (r.1, r.2 + 1)
    else (s, 0)

end Sys2Proof.Machine
end

