-- ==== Sys2Proof/WellFormed.lean ====
section
/-! DEFINITION. Which terms of Instr are encodings of their row. -/

namespace Sys2Proof

open Sys2Proof.Machine

/-- The five pairs of 44_command_protocol.md rule R172. -/
def definedPairs : List (Byte × U16) :=
  [(0xE4, 1), (0xE4, 0), (0xE1, 1), (0xE1, 0), (0xE2, 0)]

/-- The checks the constructors' types do not make. A generic command frame carries the checksum of rule R145
and is none of the five defined commands (rule R89); the illegal SET_MODE row has an illegal argument (rule R93). -/
def Instr.wellFormed (i : Instr) : Bool :=
  match i with
  | .cmdGeneric o d c =>
    c == csumTx Config.mark0 Config.mark1 o (hi d) (lo d) && !(definedPairs.contains (o, d))
  | .setModeOpIllegal arg => arg != 0 && arg != 1
  | .wakeup => true
  | .sleep => true
  | .setModeActive => true
  | .setModePassive => true
  | .passiveRead => true
  | .readingFrame _ => true
  | .ackFrame _ => true
  | .readActive _ => true
  | .readPassive _ => true
  | .wakeupOp _ => true
  | .sleepOp _ => true
  | .setModeOpPassive => true
  | .setModeOpActive => true

/-- The row's "condition" on `MODE` in the opcode table: only the two READ rows have one. -/
def Instr.rowMode (i : Instr) (m : Mode) : Bool :=
  match i with
  | .readActive _ => m == .active
  | .readPassive _ => m == .passive
  | .wakeup => true
  | .sleep => true
  | .setModeActive => true
  | .setModePassive => true
  | .passiveRead => true
  | .cmdGeneric _ _ _ => true
  | .readingFrame _ => true
  | .ackFrame _ => true
  | .wakeupOp _ => true
  | .sleepOp _ => true
  | .setModeOpPassive => true
  | .setModeOpActive => true
  | .setModeOpIllegal _ => true

end Sys2Proof
end

