-- ==== Sys2Proof/Safety.lean ====
section
/-! DEFINITION. What a safe run is, in the terms the statements use: the invariant of 10_state.md rule R45, the
record of the operation in progress (30_encoding.md rule R88, 44_command_protocol.md rule R172), and the edges of
45_session.md rule R211. -/

namespace Sys2Proof.Machine

/-- Rule R45. Its first clause (`PHASE` is one of five) and its second (`LEN` in 6, 30) hold by the fields' types. -/
structure RegisterInv (s : State) : Prop where
  txi_in_range : s.phase = .tx → s.txi.val ≤ 6
  cnt_in_range : s.phase = .capture → s.cnt.val < lenBytes s.len
  reading_valid : s.rvalid = true → s.done = true ∧ s.status = .ok
  busy_not_done : s.phase ≠ .idle → s.done = false
  command_pair : (s.cmdOpcode, s.cmdData) = (0x00, 0x0000) ∨ (s.cmdOpcode, s.cmdData) ∈ definedPairs

/-- The opcode and data of the request an operation sends (rules R88, R172); `REQ_MODE` selects between the two SET_MODE
commands. -/
def requestPair (op : HostOp) (reqMode : Mode) : Byte × U16 :=
  match op with
  | .read => (0xE2, 0)
  | .wakeup => (0xE4, 1)
  | .sleep => (0xE4, 0)
  | .setMode => (0xE1, modeBit reqMode)

/-- The response the operation waits for (rule R172, columns "Expects response" and "Response length"). -/
def responseLen (op : HostOp) : Option RespLen :=
  match op with
  | .read => some .reading
  | .wakeup => none
  | .sleep => some .ack
  | .setMode => some .ack

/-- The request frame of the operation in progress. -/
def requestFrame (s : State) : List Byte :=
  (encodeCommand (requestPair s.op s.reqMode).1 (requestPair s.op s.reqMode).2).toList

/-- What the registers hold about the operation in progress, and what of its request is on the wire. -/
structure OperationRecord (s : State) : Prop where
  /-- While a request is being sent or waited on, the command registers hold the operation's request. -/
  command_loaded : s.phase = .tx ∨ s.phase = .wait →
    (s.cmdOpcode, s.cmdData) = requestPair s.op s.reqMode ∧ s.expect = (responseLen s.op).isSome
      ∧ s.txbuf.toList = requestFrame s
  /-- `PASSIVE_READ` is sent only while `MODE` is Passive (rule R177). -/
  read_request_mode : s.phase = .tx ∨ s.phase = .wait → s.op = .read → s.mode = .passive
  /-- An operation that waits or receives expects a response, and `LEN` is its length. -/
  length_loaded : s.phase = .wait ∨ s.phase = .hunt ∨ s.phase = .capture → responseLen s.op = some s.len
  /-- A request that expects a response has loaded its length before it is sent. -/
  length_early : s.phase = .tx → s.expect = true → responseLen s.op = some s.len
  /-- In `TX` the last `TXI` bytes of `TXS` are the first `TXI` of the request. -/
  partly_sent : s.phase = .tx → (requestFrame s).take s.txi.val <:+ s.txs
  /-- In `WAIT` the whole request has been sent. -/
  wholly_sent : s.phase = .wait → requestFrame s <:+ s.txs
  /-- A response is received only after its request: for every operation but a READ in Active mode. -/
  sent_before_response : s.phase = .hunt ∨ s.phase = .capture → s.op ≠ .read ∨ s.mode = .passive →
    requestFrame s <:+ s.txs
  /-- `UsageError` is reported by SET_MODE only, `ChecksumMismatch` never by WAKEUP (rules R213, R235). -/
  usage_error_op : s.done = true → s.status = .usageError → s.op = .setMode
  mismatch_op : s.done = true → s.status = .checksumMismatch → s.op ≠ .wakeup

/-- The pairs of phases in the rows of rule R211's table, the `reset` row apart. -/
def phaseEdge (a b : Phase) : Bool :=
  match a with
  | .idle => b == .hunt || b == .tx || b == .idle
  | .tx => b == .tx || b == .wait || b == .idle
  | .wait => b == .hunt
  | .hunt => b == .hunt || b == .capture || b == .idle
  | .capture => b == .capture || b == .idle

/-- The events of rule R40 that reach the block, `reset` apart, and not a whole frame. -/
def isBlockEvent (e : Input) : Bool :=
  match e with
  | .instr (.host _) => true
  | .instr (.frame _) => false
  | .txAccept => true
  | .waitDone => true
  | .rxByte => true
  | .rxTimeout => true
  | .ioFault => true
  | .reset => false
  | .sensorByte _ => false

/-- Rule R41's table: whether the pair of phase and event has a step. A frame and a byte from the sensor are no
events of that table. -/
def hasStep (p : Phase) (e : Input) : Bool :=
  match e with
  | .instr (.host _) => p == .idle
  | .instr (.frame _) => false
  | .txAccept => p == .tx
  | .waitDone => p == .wait
  | .rxByte => p == .hunt || p == .capture
  | .rxTimeout => p == .hunt || p == .capture
  | .ioFault => p == .tx || p == .hunt || p == .capture
  | .reset => true
  | .sensorByte _ => false

/-- The run of `n` steps, which ends at the first step that is no next state. -/
def runSteps : Nat → State → Host.Outcome State Fault Refusal
  | 0, s => .next s
  | n + 1, s =>
    match step s with
    | .next t => runSteps n t
    | .fault r => .fault r
    | .refused r => .refused r

/-- A run is safe as far as it goes while no step is refused. -/
def Safe (s : State) : Prop := ∃ t, step s = .next t

end Sys2Proof.Machine
end

