-- ==== Sys2Proof/Certificates/Slice0/Obligations.lean ====
section
/-! DEFINITION. The statements for the provers. Each docstring names what of spec/ it formalises. Where a rule closes with
a decision mark, that is the spec's own choice, and the docstring names the decision. -/

open Sys2Proof Sys2Proof.Machine

/-! ### Words and frames -/

/-- Every row of the opcode table, as a number, decodes to its instruction (30_encoding.md sections 3 and 5). How a row becomes a number is
log entry 12, DEDUCED (`H` in 18 bits of 24, wire byte 0 the most significant). The word of `op` 0 is both READ rows, told apart by `MODE`, and
decodeTableWord answers for it under the mode after reset: that is the model's choice, log entry 7, DEDUCED. -/
def Obligations.TableWordsDecodeToTheirRows : Prop :=
  decodeTableWord 56 0x424DE400010174 = some .wakeup
  ∧ decodeTableWord 56 0x424DE400000173 = some .sleep
  ∧ decodeTableWord 56 0x424DE100010171 = some .setModeActive
  ∧ decodeTableWord 56 0x424DE100000170 = some .setModePassive
  ∧ decodeTableWord 56 0x424DE200000171 = some .passiveRead
  ∧ decodeTableWord 56 0x424D000000008F = some (.cmdGeneric 0x00 0x0000 0x008F)
  ∧ decodeTableWord 64 0x424D0004E1000174 = some (.ackFrame #v[0x00, 0x04, 0xE1, 0x00, 0x01, 0x74])
  ∧ decodeTableWord 256 0x424D001C00050008000900050008000903FC012C0032000400010000970002D1 = some (.readingFrame
      #v[0x00, 0x1C, 0x00, 0x05, 0x00, 0x08, 0x00, 0x09, 0x00, 0x05, 0x00, 0x08, 0x00, 0x09, 0x03, 0xFC,
         0x01, 0x2C, 0x00, 0x32, 0x00, 0x04, 0x00, 0x01, 0x00, 0x00, 0x97, 0x00, 0x02, 0xD1])
  ∧ decodeTableWord 24 0x00000 = some (.readActive 0)
  ∧ decode .passive (tableWord 24 0x00000) = .ok (.readPassive 0)
  ∧ decodeTableWord 24 0x1FFFF = some (.wakeupOp 0xFFFF)
  ∧ decodeTableWord 24 0x20000 = some (.sleepOp 0)
  ∧ decodeTableWord 24 0x30000 = some .setModeOpPassive
  ∧ decodeTableWord 24 0x30001 = some .setModeOpActive
  ∧ decodeTableWord 24 0x30100 = some (.setModeOpIllegal 0x0100)

/-- Decoding the word of a well-formed instruction gives it back, with every operand, in the mode its row asks for. -/
def Obligations.DecodeOfEncodeIsTheInstruction : Prop :=
  ∀ (m : Mode) (i : Instr), i.wellFormed = true → i.rowMode m = true → decode m (encode i) = .ok i

/-- No bit of a word is lost in decoding: whatever the decoder accepts, the encoder writes the same word for. -/
def Obligations.EncodeOfDecodeIsTheWord : Prop :=
  ∀ (m : Mode) (w : Encoded) (i : Instr), decode m w = .ok i → encode i = w ∧ i.rowMode m = true

/-- A frame is rejected exactly when it does not begin with the marker or has the length of no frame kind
(30_encoding.md section 1). That a seven-byte frame is accepted whatever its checksum bytes are, is the model's choice, log entry 10, DESIGN
CHOICE; that every other frame is rejected by name is the model's choice, log entry 18, DESIGN CHOICE. -/
def Obligations.FrameRejectedWithoutMarkerOrLength : Prop :=
  ∀ (m : Mode) (bs : List Byte),
    (∃ e, decode m (.frame bs) = .rejected e) ↔
      ¬ (bs.take 2 = [0x42, 0x4D] ∧ (bs.length = 7 ∨ bs.length = 8 ∨ bs.length = 32))

/-- Every word of the host interface is a well-formed instruction: "All four codes are used, so there is no undefined `op`"
(30_encoding.md section 5). -/
def Obligations.EveryHostWordIsAnInstruction : Prop :=
  ∀ (m : Mode) (h : HostWord), ∃ i, decode m (.host h) = .ok i ∧ i.wellFormed = true

/-! ### Word decoder, checksum, codecs -/

/-- Rule R131, with its example. -/
def Obligations.WordIsHighByteThenLowByte : Prop :=
  (∀ (n : Nat) (p : Vector Byte (2 * n)) (i : Nat) (_ : i < n),
    (words p)[i] = (p[2 * i].setWidth 16 <<< 8) ||| p[2 * i + 1].setWidth 16
    ∧ (words p)[i].toNat = 256 * p[2 * i].toNat + p[2 * i + 1].toNat)
  ∧ (∀ (buf : Vector Byte 30) (i : Nat) (_ : i < 15),
    (bufWords buf)[i].toNat = 256 * buf[2 * i].toNat + buf[2 * i + 1].toNat)
  ∧ words (n := 1) #v[0x03, 0xFC] = #v[1020]

/-- Rule R141: the checksum of a received payload is the marker sum 0x8F = 143 and the sum of all payload bytes but the last
two, as byte values (not words, rule R144), modulo 65536; with the rule's example. -/
def Obligations.ReceivedChecksumIsTheByteSum : Prop :=
  (∀ (n : Nat) (p : Vector Byte n), 2 ≤ n →
    (csumRx p).toNat = (0x8F + ((p.toList.take (n - 2)).map BitVec.toNat).sum) % 65536)
  ∧ (0x42 + 0x4D = 0x8F ∧ 0x8F = 143)
  ∧ csumRx (#v[0x00, 0x04, 0xE1, 0x00, 0x01, 0x74] : Vector Byte 6) = 0x0174

/-- Rule R142: `CHECK` holds exactly when the last word equals `CSUM_RX`; with the rule's example. -/
def Obligations.CheckAcceptsExactlyTheMatchingChecksum : Prop :=
  (∀ (n : Nat) (p : Vector Byte (2 * n)) (_ : 1 ≤ n),
    check p = true ↔ (p[2 * n - 2].setWidth 16 <<< 8) ||| p[2 * n - 1].setWidth 16 = csumRx p)
  ∧ check (n := 3) #v[0x00, 0x04, 0xE1, 0x00, 0x01, 0x75] = false

/-- Rule R145: the transmitted checksum is the sum of the five preceding bytes; with the marker in front it is the marker sum and
the opcode and data bytes; with the rule's example. -/
def Obligations.CommandChecksumIsTheByteSum : Prop :=
  (∀ b0 b1 b2 b3 b4 : Byte,
    (csumTx b0 b1 b2 b3 b4).toNat = (b0.toNat + b1.toNat + b2.toNat + b3.toNat + b4.toNat) % 65536)
  ∧ (∀ x y z : Byte, (csumTx 0x42 0x4D x y z).toNat = (0x8F + x.toNat + y.toNat + z.toNat) % 65536)
  ∧ csumTx 0x42 0x4D 0xE1 0x00 0x01 = 0x0171

/-- The ranges of the sums (42_checksum.md section 3): 143 to 7283 for a reading frame, 143 to 1163 for an acknowledgement,
143 to 908 for a command. -/
def Obligations.ChecksumRanges : Prop :=
  (∀ p : Vector Byte 30, 143 ≤ (csumRx p).toNat ∧ (csumRx p).toNat ≤ 7283)
  ∧ (∀ p : Vector Byte 6, 143 ≤ (csumRx p).toNat ∧ (csumRx p).toNat ≤ 1163)
  ∧ (∀ x y z : Byte, 143 ≤ (csumTx 0x42 0x4D x y z).toNat ∧ (csumTx 0x42 0x4D x y z).toNat ≤ 908)

/-- What the additive checksum detects and what it does not (42_checksum.md section 3): a payload that passes fails after a change
of any single byte, and still passes after an exchange of any two summed bytes. -/
def Obligations.SingleByteChangeIsDetectedAndExchangeIsNot : Prop :=
  ∀ (n : Nat) (p : Vector Byte (2 * n)), check p = true →
    (∀ (i : Nat) (hi : i < 2 * n) (b : Byte), b ≠ p[i] → check (p.set i b) = false)
    ∧ (∀ (i j : Nat) (hi : i < 2 * n - 2) (hj : j < 2 * n - 2), check (p.swap i j) = true)

/-- The command frame (44_command_protocol.md section 1; the length of seven is decision D6, totality decision D33): the marker,
the opcode, the data and the checksum, high bytes first. -/
def Obligations.CommandFrameLayout : Prop :=
  ∀ (opcode : Byte) (data : U16), ∃ b5 b6 : Byte,
    (encodeCommand opcode data).toList = [0x42, 0x4D, opcode, hi data, lo data, b5, b6]
    ∧ (hi data).toNat = data.toNat / 256 ∧ (lo data).toNat = data.toNat % 256
    ∧ b5.toNat * 256 + b6.toNat = 143 + opcode.toNat + data.toNat / 256 + data.toNat % 256

/-- Splitting and rebuilding a 16-bit value are inverse (30_encoding.md section 2). -/
def Obligations.SplittingAndRebuildingAreInverse : Prop :=
  (∀ v : U16, word16 (hi v) (lo v) = v) ∧ (∀ h l : Byte, hi (word16 h l) = h ∧ lo (word16 h l) = l)

/-- Rule R161: field `k` of the reading is word `k` + 1; with the rule's example. -/
def Obligations.ReadingFieldIsTheNextWord : Prop :=
  (∀ (w : Vector U16 15) (k : Nat) (_ : k < 12), (codec w)[k] = w[k + 1])
  ∧ (∀ (buf : Vector Byte 30) (k : Nat) (_ : k < 12),
      (codec (bufWords buf))[k].toNat = 256 * buf[2 * k + 2].toNat + buf[2 * k + 3].toNat)
  ∧ (∀ w : Vector U16 15, w[7] = 0x03FC → (codec w)[6].toNat = 1020)

/-! ### The step -/

/-- When the next input is a word that decodes, the step is `exec` of that instruction on the state without that input; when it
does not decode, the step is refused by name. A table word placed by `withFetchWord` is the next thing the step runs. The list of coming inputs
(log entry 1, DESIGN CHOICE), the refusal of an undecodable word (log entry 18, DESIGN CHOICE) and the placing of a word (log entry 15, DEDUCED)
are the model's choices. -/
def Obligations.StepRunsTheDecodedInstruction : Prop :=
  (∀ (s : State) (w : Encoded) (rest : List Input), s.inbox = .instr w :: rest →
    (∀ i, decode s.mode w = .ok i → step s = exec i { s with inbox := rest })
    ∧ (∀ e, decode s.mode w = .rejected e → step s = .refused (.undecodable e)))
  ∧ (∀ (s : State) (nbits n : Nat) (i : Instr), decode s.mode (tableWord nbits n) = .ok i →
    step (s.withFetchWord nbits n) = exec i s)

/-- The step on each event of the environment (10_state.md section 6, decision D2), and with nothing offered: the block waits
(70_reset_and_hazards.md section 3, log entry 2). -/
def Obligations.StepTakesTheOfferedEvent : Prop :=
  ∀ (s : State) (rest : List Input),
    (s.inbox = [] → step s = .next s)
    ∧ (s.inbox = .txAccept :: rest → step s = .next (txAccept { s with inbox := rest }))
    ∧ (s.inbox = .waitDone :: rest → step s = .next (waitDone { s with inbox := rest }))
    ∧ (s.inbox = .ioFault :: rest → step s = .next (ioFault { s with inbox := rest }))
    ∧ (s.inbox = .reset :: rest → step s = .next (reset { s with inbox := rest }))
    ∧ (s.inbox = .rxTimeout :: rest → s.rx = [] → step s = .next (rxTimeout { s with inbox := rest }))
    ∧ (∀ b, s.inbox = .sensorByte b :: rest → step s = .next { s with inbox := rest, rx := s.rx ++ [b] })
    ∧ (∀ b bs, s.inbox = .rxByte :: rest → s.rx = b :: bs → acceptsByte s = true →
        step s = .next (rxByte b { s with inbox := rest, rx := bs }))

/-- An event that has no step in the phase it meets changes nothing but that it is gone (10_state.md section 6, 60_exceptions.md
section 2; decision D2, log entry 4): a received byte stays in the transport. Nor does a timeout offered with bytes queued change anything
(20_memory.md section 2, decision D17, log entry 6), nor the offer of a received byte with none queued (log entry 23). Log entries 4, 6 and 23 are
DEDUCED: that such an offer is taken off the list and otherwise ignored is the model's choice. -/
def Obligations.EventWithoutAStepChangesNothing : Prop :=
  ∀ (s : State) (e : Input) (rest : List Input), s.inbox = e :: rest → isBlockEvent e = true → (∀ h, e ≠ .instr (.host h)) →
    (hasStep s.phase e = false ∨ e = .rxTimeout ∧ s.rx ≠ [] ∨ e = .rxByte ∧ s.rx = []) →
    step s = .next { s with inbox := rest }

/-- No step ends in a fault, and a step is refused only for a host operation or one of the five wire commands offered while an operation runs
(45_session.md section 1, decision D14, log entry 5), or for a frame that is no row of the table (the model's choice, log entry 18). -/
def Obligations.OnlyBusyStartsAndUndecodableFramesStop : Prop :=
  (∀ (i : Instr) (s : State), s.phase = .idle → ∃ t, exec i s = .next t)
  ∧ (∀ s : State, (∃ t, step s = .next t)
      ∨ (∃ h rest, s.inbox = .instr (.host h) :: rest ∧ s.phase ≠ .idle ∧ step s = .refused .hostStartWhileBusy)
      ∨ (∃ bs rest i, s.inbox = .instr (.frame bs) :: rest ∧ s.phase ≠ .idle ∧ decode s.mode (.frame bs) = .ok i
          ∧ i ∈ [Instr.wakeup, .sleep, .setModeActive, .setModePassive, .passiveRead] ∧ step s = .refused .commandWhileBusy)
      ∨ (∃ bs rest e, s.inbox = .instr (.frame bs) :: rest ∧ decode s.mode (.frame bs) = .rejected e
          ∧ step s = .refused (.undecodable e)))

/-- While an operation runs, every host operation and each of the five wire commands is refused (45_session.md section 1 and
93_implementation_defined.md I1; decision D14, log entry 5), and a generic command frame changes nothing (log entry 9): the operation in progress
cannot be altered. -/
def Obligations.BusyBlockRefusesEveryStart : Prop :=
  ∀ (s : State) (arg : U16) (opcode : Byte) (data checksum : U16), s.phase ≠ .idle →
    exec (.readActive arg) s = .refused .hostStartWhileBusy
    ∧ exec (.readPassive arg) s = .refused .hostStartWhileBusy
    ∧ exec (.wakeupOp arg) s = .refused .hostStartWhileBusy
    ∧ exec (.sleepOp arg) s = .refused .hostStartWhileBusy
    ∧ exec .setModeOpPassive s = .refused .hostStartWhileBusy
    ∧ exec .setModeOpActive s = .refused .hostStartWhileBusy
    ∧ exec (.setModeOpIllegal arg) s = .refused .hostStartWhileBusy
    ∧ exec .wakeup s = .refused .commandWhileBusy
    ∧ exec .sleep s = .refused .commandWhileBusy
    ∧ exec .setModeActive s = .refused .commandWhileBusy
    ∧ exec .setModePassive s = .refused .commandWhileBusy
    ∧ exec .passiveRead s = .refused .commandWhileBusy
    ∧ exec (.cmdGeneric opcode data checksum) s = .next s

/-! ### Reset -/

/-- The reset values (10_state.md section 8). `MODE` = Active is the document's; the others are decision D18; the empty streams and
inbox are log entries 1 and 3. -/
def Obligations.ResetStateValues : Prop :=
  State.reset = {
    mode := .active, phase := .idle, op := .read, reqMode := .active, cmdOpcode := 0, cmdData := 0,
    expect := false, len := .reading, txbuf := #v[0, 0, 0, 0, 0, 0, 0], txi := 0, prev42 := false, cnt := 0,
    buf := Vector.replicate 30 0, done := false, status := .ok, rvalid := false, reading := Vector.replicate 12 0,
    rx := [], txs := [], inbox := [] }
  ∧ busy State.reset = false ∧ modeOut State.reset = true ∧ doneOut State.reset = false
  ∧ readingOut State.reset = none

/-- The event `reset` has a step in every phase, sets every element of the block to its reset value, reports no status, and
touches neither stream (70_reset_and_hazards.md section 1; decisions D18, D29). -/
def Obligations.ResetEventClearsTheBlockOnly : Prop :=
  ∀ (s : State) (rest : List Input), s.inbox = .reset :: rest →
    step s = .next { State.reset with rx := s.rx, txs := s.txs, inbox := rest }

/-! ### Host operations -/

/-- READ in Active mode (45_session.md section 2): it begins a hunt for 30 bytes and transmits nothing, whatever `arg` is. Both READ rows are
this step then: that the constructor readPassive met in Active mode is the Active READ is the model's choice, log entry 7, DEDUCED. -/
def Obligations.ReadInActiveModeBeginsAHunt : Prop :=
  ∀ (s : State) (arg : U16), s.phase = .idle → s.mode = .active →
    exec (.readActive arg) s = .next { s with
      done := false, status := .ok, rvalid := false, op := .read,
      len := .reading, prev42 := false, cnt := 0, phase := .hunt }
    ∧ exec (.readPassive arg) s = exec (.readActive arg) s

/-- READ in Passive mode (45_session.md section 2): it loads PASSIVE_READ and begins to transmit, whatever `arg` is. Both READ rows are this
step then: that the constructor readActive met in Passive mode is the Passive READ is the model's choice, log entry 7, DEDUCED. -/
def Obligations.ReadInPassiveModeLoadsItsRequest : Prop :=
  ∀ (s : State) (arg : U16), s.phase = .idle → s.mode = .passive →
    exec (.readPassive arg) s = .next { s with
      done := false, status := .ok, rvalid := false, op := .read,
      cmdOpcode := 0xE2, cmdData := 0x0000, expect := true, len := .reading,
      txbuf := #v[0x42, 0x4D, 0xE2, 0x00, 0x00, 0x01, 0x71], txi := 0, phase := .tx }
    ∧ exec (.readActive arg) s = exec (.readPassive arg) s

/-- WAKEUP (45_session.md section 2): it loads its request, expects no response, and leaves `LEN` alone. -/
def Obligations.WakeupLoadsItsRequest : Prop :=
  ∀ (s : State) (arg : U16), s.phase = .idle →
    exec (.wakeupOp arg) s = .next { s with
      done := false, status := .ok, rvalid := false, op := .wakeup,
      cmdOpcode := 0xE4, cmdData := 0x0001, expect := false,
      txbuf := #v[0x42, 0x4D, 0xE4, 0x00, 0x01, 0x01, 0x74], txi := 0, phase := .tx }

/-- SLEEP (45_session.md section 2): it loads its request and will await six bytes. -/
def Obligations.SleepLoadsItsRequest : Prop :=
  ∀ (s : State) (arg : U16), s.phase = .idle →
    exec (.sleepOp arg) s = .next { s with
      done := false, status := .ok, rvalid := false, op := .sleep,
      cmdOpcode := 0xE4, cmdData := 0x0000, expect := true, len := .ack,
      txbuf := #v[0x42, 0x4D, 0xE4, 0x00, 0x00, 0x01, 0x73], txi := 0, phase := .tx }

/-- SET_MODE with a legal argument (45_session.md section 2): it latches the mode asked for, loads its request, will await six bytes,
and does not write `MODE`, which need not differ from the argument. -/
def Obligations.SetModeLoadsItsRequest : Prop :=
  ∀ s : State, s.phase = .idle →
    exec .setModeOpPassive s = .next { s with
      done := false, status := .ok, rvalid := false, op := .setMode,
      reqMode := .passive, cmdOpcode := 0xE1, cmdData := 0x0000, expect := true, len := .ack,
      txbuf := #v[0x42, 0x4D, 0xE1, 0x00, 0x00, 0x01, 0x70], txi := 0, phase := .tx }
    ∧ exec .setModeOpActive s = .next { s with
      done := false, status := .ok, rvalid := false, op := .setMode,
      reqMode := .active, cmdOpcode := 0xE1, cmdData := 0x0001, expect := true, len := .ack,
      txbuf := #v[0x42, 0x4D, 0xE1, 0x00, 0x01, 0x01, 0x71], txi := 0, phase := .tx }
    ∧ exec (.setModeOpIllegal 0) s = exec .setModeOpPassive s
    ∧ exec (.setModeOpIllegal 1) s = exec .setModeOpActive s

/-- Rule R207: SET_MODE with an illegal argument completes at once with UsageError; the result registers and `OP` are written and
nothing else: no request is loaded, nothing is sent, nothing is consumed. -/
def Obligations.IllegalSetModeReportsUsageError : Prop :=
  (∀ (s : State) (arg : U16), s.phase = .idle → arg ≠ 0x0000 → arg ≠ 0x0001 →
    exec (.setModeOpIllegal arg) s = .next { s with done := true, status := .usageError, rvalid := false, op := .setMode })
  ∧ (∀ (s : State) (h : HostWord) (rest : List Input), s.phase = .idle → s.inbox = .instr (.host h) :: rest →
    hostWordOp h = .setMode → hostWordArg h ≠ 0 → hostWordArg h ≠ 1 →
    step s = .next { s with done := true, status := .usageError, rvalid := false, op := .setMode, inbox := rest })

/-- Rule R93: of all host words, those of SET_MODE with an argument other than 0 and 1, and no others, report UsageError in the step
that takes them; READ, WAKEUP and SLEEP do the same whatever `arg` is. -/
def Obligations.IllegalArgumentIsTheOneIllegalHostEncoding : Prop :=
  (∀ (s t : State) (h : HostWord) (rest : List Input), s.phase = .idle → s.inbox = .instr (.host h) :: rest → step s = .next t →
    (t.status = .usageError ↔ hostWordOp h = .setMode ∧ hostWordArg h ≠ 0 ∧ hostWordArg h ≠ 1)
    ∧ (t.status = .usageError → t.done = true ∧ t.phase = .idle))
  ∧ (∀ (s : State) (a b : U16), exec (.readActive a) s = exec (.readActive b) s
      ∧ exec (.readPassive a) s = exec (.readPassive b) s
      ∧ exec (.wakeupOp a) s = exec (.wakeupOp b) s
      ∧ exec (.sleepOp a) s = exec (.sleepOp b) s)

/-! ### Wire commands -/

/-- The wire command WAKEUP (44_command_protocol.md section 2, log entry 8): its seven bytes go out and the operation is complete, with
no wait and no reception. -/
def Obligations.WakeupCommandCompletes : Prop :=
  ∀ s : State, s.phase = .idle →
    exec .wakeup s = .next { s with
      done := true, status := .ok, rvalid := false, op := .wakeup,
      cmdOpcode := 0xE4, cmdData := 0x0001, expect := false,
      txbuf := #v[0x42, 0x4D, 0xE4, 0x00, 0x01, 0x01, 0x74], txi := 7, phase := .idle,
      txs := s.txs ++ [0x42, 0x4D, 0xE4, 0x00, 0x01, 0x01, 0x74] }

/-- The wire commands that expect a response (44_command_protocol.md section 2): the seven bytes go out and the block waits, having consumed
nothing. PASSIVE_READ does so only while `MODE` is Passive. That a command is one step is the model's choice, log entry 8, DESIGN CHOICE, and so
is it that PASSIVE_READ offered in Active mode, where the block has no step that sends it, changes nothing. -/
def Obligations.AwaitedCommandsGoOutAndWait : Prop :=
  ∀ s : State, s.phase = .idle →
    exec .sleep s = .next { s with
      done := false, status := .ok, rvalid := false, op := .sleep,
      cmdOpcode := 0xE4, cmdData := 0x0000, expect := true, len := .ack,
      txbuf := #v[0x42, 0x4D, 0xE4, 0x00, 0x00, 0x01, 0x73], txi := 7, phase := .wait,
      txs := s.txs ++ [0x42, 0x4D, 0xE4, 0x00, 0x00, 0x01, 0x73] }
    ∧ exec .setModeActive s = .next { s with
      done := false, status := .ok, rvalid := false, op := .setMode,
      reqMode := .active, cmdOpcode := 0xE1, cmdData := 0x0001, expect := true, len := .ack,
      txbuf := #v[0x42, 0x4D, 0xE1, 0x00, 0x01, 0x01, 0x71], txi := 7, phase := .wait,
      txs := s.txs ++ [0x42, 0x4D, 0xE1, 0x00, 0x01, 0x01, 0x71] }
    ∧ exec .setModePassive s = .next { s with
      done := false, status := .ok, rvalid := false, op := .setMode,
      reqMode := .passive, cmdOpcode := 0xE1, cmdData := 0x0000, expect := true, len := .ack,
      txbuf := #v[0x42, 0x4D, 0xE1, 0x00, 0x00, 0x01, 0x70], txi := 7, phase := .wait,
      txs := s.txs ++ [0x42, 0x4D, 0xE1, 0x00, 0x00, 0x01, 0x70] }
    ∧ (s.mode = .passive → exec .passiveRead s = .next { s with
      done := false, status := .ok, rvalid := false, op := .read,
      cmdOpcode := 0xE2, cmdData := 0x0000, expect := true, len := .reading,
      txbuf := #v[0x42, 0x4D, 0xE2, 0x00, 0x00, 0x01, 0x71], txi := 7, phase := .wait,
      txs := s.txs ++ [0x42, 0x4D, 0xE2, 0x00, 0x00, 0x01, 0x71] })
    ∧ (s.mode = .active → exec .passiveRead s = .next s)

/-- The generic command frame (44_command_protocol.md section 1): its word is what the encoder returns, for every pair, and the block, which
passes the encoder the five defined pairs only, changes nothing on it in any phase, whatever checksum the word carries. That an offered word changes
nothing is the model's choice, log entries 9 and 10, DESIGN CHOICE. -/
def Obligations.GenericCommandIsEncodedOnly : Prop :=
  (∀ (s : State) (opcode : Byte) (data checksum : U16), exec (.cmdGeneric opcode data checksum) s = .next s)
  ∧ (∀ (opcode : Byte) (data checksum : U16), Instr.wellFormed (.cmdGeneric opcode data checksum) = true →
      encode (.cmdGeneric opcode data checksum) = .frame (encodeCommand opcode data).toList)

/-- A wire command is its host operation followed by seven `tx_accept`, byte for byte (44_command_protocol.md section 3; the one-step form is the
model's choice, log entry 8, DESIGN CHOICE). -/
def Obligations.WireCommandIsTheRunOfItsOperation : Prop :=
  ∀ s : State, s.phase = .idle →
    let runOf (h : HostWord) : Host.Outcome State Fault Refusal :=
      runSteps 8 { s with inbox := .instr (.host h) :: (List.replicate 7 Input.txAccept ++ s.inbox) }
    runOf (hostWord .wakeup 0) = exec .wakeup s
    ∧ runOf (hostWord .sleep 0) = exec .sleep s
    ∧ runOf (hostWord .setMode 1) = exec .setModeActive s
    ∧ runOf (hostWord .setMode 0) = exec .setModePassive s
    ∧ (s.mode = .passive → runOf (hostWord .read 0) = exec .passiveRead s)

/-! ### Transmission and wait -/

/-- Seven `tx_accept` send exactly the request that is loaded (44_command_protocol.md section 3): the bytes leave in index order, then the block
waits, or is done if no response is expected. Before the seventh the frame is partly sent and nothing else has changed. -/
def Obligations.RequestIsSentInOrder : Prop :=
  ∀ (s : State), s.phase = .tx → s.txi = 0 →
    (∀ (n : Nat) (i : Fin 8), n ≤ 6 → i.val = n →
      acceptBytes n s = { s with txi := i, txs := s.txs ++ s.txbuf.toList.take n })
    ∧ acceptBytes 7 s =
        (if s.expect then { s with txi := 7, txs := s.txs ++ s.txbuf.toList, phase := .wait }
         else complete .ok { s with txi := 7, txs := s.txs ++ s.txbuf.toList })

/-- The last `tx_accept` of a request (44_command_protocol.md section 3): the last byte is sent, and then the block waits, or the operation is
complete with OK if no response is expected. -/
def Obligations.LastRequestByteWaitsOrCompletes : Prop :=
  ∀ (s : State) (rest : List Input), s.phase = .tx → s.txi = 6 → s.inbox = .txAccept :: rest →
    (s.expect = true → step s = .next { s with txs := s.txs ++ [s.txbuf[6]], txi := 7, phase := .wait, inbox := rest })
    ∧ (s.expect = false → step s = .next
        (complete .ok { s with txs := s.txs ++ [s.txbuf[6]], txi := 7, inbox := rest }))
    ∧ (s.expect = false → ∃ t, step s = .next t ∧ t.phase = .idle ∧ t.done = true ∧ t.status = .ok)

/-- The wait ends on `wait_done` only, and the hunt that follows remembers no byte (44_command_protocol.md section 4, decision D16): no other
event of the block but `reset` leaves `WAIT`, and none consumes a byte or sends one. -/
def Obligations.WaitEndsOnlyOnWaitDone : Prop :=
  ∀ (s : State) (e : Input) (rest : List Input), s.phase = .wait → s.inbox = e :: rest → isBlockEvent e = true →
    (e = .waitDone → step s = .next { s with phase := .hunt, prev42 := false, cnt := 0, inbox := rest })
    ∧ (e ≠ .waitDone → (∀ h, e ≠ .instr (.host h)) → step s = .next { s with inbox := rest })

/-! ### Reception -/

/-- The hunt (40_frame_sync.md section 2, decision D10): the marker is matched on the last two bytes consumed in this hunt, a repeated 0x42
does not lose it, and every other byte is discarded. -/
def Obligations.HuntMatchesTheLastTwoBytes : Prop :=
  ∀ (s : State) (b : Byte) (bs : List Byte) (rest : List Input),
    s.phase = .hunt → s.inbox = .rxByte :: rest → s.rx = b :: bs →
    (s.prev42 = true → b = 0x4D →
      step s = .next { s with phase := .capture, cnt := 0, prev42 := false, rx := bs, inbox := rest })
    ∧ (¬ (s.prev42 = true ∧ b = 0x4D) →
      step s = .next { s with prev42 := decide (b = 0x42), rx := bs, inbox := rest })

/-- Rule R114: a byte that is not the last is stored at `CNT`, whatever its value, and no other cell of BUF changes. -/
def Obligations.CaptureStoresTheByte : Prop :=
  ∀ (s : State) (b : Byte) (bs : List Byte) (rest : List Input),
    s.phase = .capture → s.inbox = .rxByte :: rest → s.rx = b :: bs → s.cnt.val + 1 < lenBytes s.len →
    ∃ t, step s = .next t
      ∧ t = { s with buf := t.buf, cnt := t.cnt, rx := bs, inbox := rest }
      ∧ t.cnt.val = s.cnt.val + 1
      ∧ (∀ a, memRead8 t a = if a = s.cnt.val then some b else memRead8 s a)

/-- The last byte of the payload (40_frame_sync.md section 3, decision D13): it is stored, and the same step validates and completes. Not one
byte more is consumed. -/
def Obligations.LastPayloadByteValidates : Prop :=
  ∀ (s : State) (b : Byte) (bs : List Byte) (rest : List Input),
    s.phase = .capture → s.inbox = .rxByte :: rest → s.rx = b :: bs → s.cnt.val + 1 = lenBytes s.len →
    ∃ t, step s = .next t
      ∧ t.phase = .idle ∧ t.done = true ∧ t.cnt.val = lenBytes s.len ∧ t.rx = bs ∧ t.txs = s.txs
      ∧ (∀ a, memRead8 t a = if a = s.cnt.val then some b else memRead8 s a)
      ∧ t.status = (if check (capturedPayload t.buf s.len) then .ok else .checksumMismatch)
      ∧ t.mode = (if check (capturedPayload t.buf s.len) ∧ s.op = .setMode then s.reqMode else s.mode)
      ∧ t.reading = (if check (capturedPayload t.buf s.len) ∧ s.op = .read then codec (bufWords t.buf) else s.reading)
      ∧ t.rvalid = (if check (capturedPayload t.buf s.len) ∧ s.op = .read then true else s.rvalid)
      ∧ t = { s with
                phase := t.phase, done := t.done, cnt := t.cnt, rx := t.rx, buf := t.buf, status := t.status
                mode := t.mode, reading := t.reading, rvalid := t.rvalid, inbox := rest }

/-- Rule R117: a timeout in `CAPTURE` is SensorError, whatever has been captured, and the captured bytes stay. The queue is empty, since a
timeout is offered only then (rule R54). -/
def Obligations.TimeoutWhileCapturingIsSensorError : Prop :=
  ∀ (s : State) (rest : List Input), s.phase = .capture → s.inbox = .rxTimeout :: rest → s.rx = [] →
    step s = .next { s with phase := .idle, done := true, status := .sensorError, inbox := rest }

/-- Rule R118: an I/O fault in `HUNT` or `CAPTURE` is SensorError. -/
def Obligations.FaultWhileReceivingIsSensorError : Prop :=
  ∀ (s : State) (rest : List Input), s.phase = .hunt ∨ s.phase = .capture → s.inbox = .ioFault :: rest →
    step s = .next { s with phase := .idle, done := true, status := .sensorError, inbox := rest }

/-- Two more ends with SensorError that rest on decisions of the spec: a timeout in `HUNT` (40_frame_sync.md section 2, decision D11),
offered with the queue empty, and an I/O fault in `TX`, for WAKEUP too (44_command_protocol.md section 3, decision D19): what has been
sent stays sent, the rest is not sent. -/
def Obligations.HuntTimeoutAndSendFaultAreSensorErrors : Prop :=
  ∀ (s : State) (rest : List Input),
    (s.phase = .hunt → s.inbox = .rxTimeout :: rest → s.rx = [] →
      step s = .next { s with phase := .idle, done := true, status := .sensorError, inbox := rest })
    ∧ (s.phase = .tx → s.inbox = .ioFault :: rest →
      step s = .next { s with phase := .idle, done := true, status := .sensorError, inbox := rest })

/-- A frame that arrives while the block receives nothing waits in RX (20_memory.md section 2, decision D22, log entry 11). -/
def Obligations.FrameWaitsWhileNothingIsReceived : Prop :=
  ∀ (s : State) (p : Vector Byte 30) (q : Vector Byte 6), s.phase = .idle ∨ s.phase = .tx ∨ s.phase = .wait →
    exec (.readingFrame p) s = .next { s with rx := s.rx ++ 0x42 :: 0x4D :: p.toList }
    ∧ exec (.ackFrame q) s = .next { s with rx := s.rx ++ 0x42 :: 0x4D :: q.toList }

/-- A reading frame met by a hunt for 30 bytes, with nothing queued before it (40_frame_sync.md sections 2 and 3, 43_reading_codec.md, log
entry 11): the payload is captured, checked, and for a READ presented. No other register changes. -/
def Obligations.ReadingFrameAnswersTheHunt : Prop :=
  ∀ (s : State) (p : Vector Byte 30), s.phase = .hunt → s.rx = [] → s.len = .reading →
    exec (.readingFrame p) s = .next { s with
      phase := .idle, done := true, prev42 := false, cnt := 30, buf := p,
      status := if check (n := 15) p then .ok else .checksumMismatch,
      mode := if check (n := 15) p ∧ s.op = .setMode then s.reqMode else s.mode,
      reading := if check (n := 15) p ∧ s.op = .read then codec (bufWords p) else s.reading,
      rvalid := if check (n := 15) p ∧ s.op = .read then true else s.rvalid }

/-- An acknowledgement met by a hunt for 6 bytes, with nothing queued before it (40_frame_sync.md sections 2 and 3, 44_command_protocol.md
section 5, log entry 11): six bytes are captured and checked, their content is not looked at, and for a SET_MODE the mode is changed if they
pass. The other 24 cells of BUF keep their content. For a READ, whose `LEN` is 30 in every state of OperationRecord, the clause on the reading is
the model's own, log entry 21, DEDUCED. -/
def Obligations.AckFrameAnswersTheHunt : Prop :=
  ∀ (s : State) (p : Vector Byte 6), s.phase = .hunt → s.rx = [] → s.len = .ack →
    ∃ t, exec (.ackFrame p) s = .next t
      ∧ (∀ a, memRead8 t a = if a < 6 then p[a]? else memRead8 s a)
      ∧ t.status = (if check (n := 3) p then .ok else .checksumMismatch)
      ∧ t.mode = (if check (n := 3) p ∧ s.op = .setMode then s.reqMode else s.mode)
      ∧ (s.op ≠ .read → t.reading = s.reading ∧ t.rvalid = s.rvalid)
      ∧ (s.op = .read → check (n := 3) p = true → t.reading = codec (bufWords t.buf) ∧ t.rvalid = true)
      ∧ (check (n := 3) p = false → t.reading = s.reading ∧ t.rvalid = s.rvalid)
      ∧ t = { s with
                phase := .idle, done := true, prev42 := false, cnt := 6, buf := t.buf, status := t.status
                mode := t.mode, reading := t.reading, rvalid := t.rvalid }

/-- The hazard of an unsolicited reading frame ahead of an acknowledgement (70_reset_and_hazards.md section 3, log entry 11): the hunt for six
bytes stops at its marker, takes its first six payload bytes as the acknowledgement, and leaves the other 24 in RX. -/
def Obligations.ReadingFrameIsTakenForAnAcknowledgement : Prop :=
  ∀ (s : State) (p : Vector Byte 30), s.phase = .hunt → s.rx = [] → s.len = .ack →
    ∃ t, exec (.readingFrame p) s = .next t
      ∧ t.phase = .idle ∧ t.done = true ∧ t.rx = p.toList.drop 6
      ∧ (∀ a, memRead8 t a = if a < 6 then p[a]? else memRead8 s a)
      ∧ t.status = (if word16 p[4] p[5] = csumRx (#v[p[0], p[1], p[2], p[3], p[4], p[5]] : Vector Byte 6) then .ok
                    else .checksumMismatch)

/-- A frame is taken in every state, and what it never changes: the command registers, the transmit side, `OP`, `REQ_MODE`, `EXPECT`, `LEN`, the
inbox, and every cell of BUF from `LEN` on (40_frame_sync.md section 1, log entry 11). -/
def Obligations.FrameReceptionFrame : Prop :=
  ∀ (s : State) (i : Instr), (∃ p, i = .readingFrame p) ∨ (∃ p, i = .ackFrame p) →
    ∃ t, exec i s = .next t
      ∧ t = { s with
                mode := t.mode, phase := t.phase, prev42 := t.prev42, cnt := t.cnt, buf := t.buf, done := t.done
                status := t.status, rvalid := t.rvalid, reading := t.reading, rx := t.rx }
      ∧ (∀ a, lenBytes s.len ≤ a → memRead8 t a = memRead8 s a)
      ∧ (t.mode ≠ s.mode → s.op = .setMode ∧ t.mode = s.reqMode ∧ t.status = .ok ∧ t.done = true ∧ t.phase = .idle)
      ∧ (t.reading ≠ s.reading → s.op = .read ∧ t.rvalid = true ∧ t.status = .ok ∧ t.done = true ∧ t.phase = .idle)
      ∧ (t.phase ≠ .idle → t.done = s.done ∧ t.status = s.status ∧ t.rvalid = s.rvalid)

/-- A frame is the run of its bytes: the sensor sends them one by one, and the transport then offers every queued byte (20_memory.md section 2,
log entry 11). -/
def Obligations.FrameIsTheRunOfItsBytes : Prop :=
  ∀ (s : State) (i : Instr) (bytes : List Byte), encode i = .frame bytes →
    (∃ p, i = .readingFrame p) ∨ (∃ p, i = .ackFrame p) →
    runSteps (bytes.length + (s.rx.length + bytes.length))
      { s with inbox := bytes.map Input.sensorByte ++ (List.replicate (s.rx.length + bytes.length) Input.rxByte ++ s.inbox) }
    = exec i s

/-- The synchronizer's steps are the function of rule R120's section 5: over any list of bytes, timeouts and faults offered from the start of a
hunt, they consume as many inputs and end as that function says. -/
def Obligations.SynchronizerIsTheFunctionOfItsInput : Prop :=
  ∀ (s : State) (es : List SyncEvent), s.phase = .hunt → s.prev42 = false →
    (syncRun es s).2 = (syncSpec (lenBytes s.len) es).2
    ∧ (match (syncSpec (lenBytes s.len) es).1 with
       | .payload bytes =>
           (syncRun es s).1.phase = .idle
           ∧ (capturedPayload (syncRun es s).1.buf s.len).toList = bytes
           ∧ (syncRun es s).1.status = (if check (capturedPayload (syncRun es s).1.buf s.len) then .ok else .checksumMismatch)
       | .sensorError =>
           (syncRun es s).1.phase = .idle ∧ (syncRun es s).1.status = .sensorError
           ∧ (syncRun es s).1.reading = s.reading ∧ (syncRun es s).1.rvalid = s.rvalid ∧ (syncRun es s).1.mode = s.mode
       | .stillHunting => (syncRun es s).1.phase = .hunt ∧ (syncRun es s).1.buf = s.buf
       | .stillCapturing => (syncRun es s).1.phase = .capture)

/-! ### Results and errors -/

/-- An error sets `PHASE`, `DONE` and `STATUS` and changes nothing else: `MODE`, `RVALID` and `READING` stay (60_exceptions.md section 4). The two
ways an error is entered do exactly that. A step on a timeout or a fault that ends an operation does nothing more (40_frame_sync.md sections 2 and 3,
44_command_protocol.md section 3). A step on a received byte that ends one with ChecksumMismatch also takes its last byte from RX into BUF (40_frame_sync.md section 3), a step that rejects an
argument also clears `RVALID` and latches `OP` (45_session.md sections 1 and 2), and nothing more. A step on a whole frame offered as one instruction,
the model's own form (log entry 11, DESIGN CHOICE), may besides write BUF, `CNT`, `PREV42` and RX. -/
def Obligations.ErrorChangesOnlyTheResult : Prop :=
  (∀ (s : State) (st : Status), st ≠ .ok → complete st s = { s with phase := .idle, done := true, status := st })
  ∧ (∀ s : State, usageError s = { s with phase := .idle, done := true, status := .usageError })
  ∧ (∀ (s t : State) (e : Input) (rest : List Input), s.inbox = e :: rest → e ≠ .reset → step s = .next t →
      t.done = true → t.status ≠ .ok →
      t.mode = s.mode ∧ t.reading = s.reading ∧ (t.rvalid = s.rvalid ∨ t.rvalid = false))
  ∧ (∀ (s t : State) (e : Input) (rest : List Input), s.inbox = e :: rest → e ≠ .reset → step s = .next t →
      s.phase ≠ .idle → t.phase = .idle → t.status ≠ .ok →
      t = { s with
              phase := .idle, done := true, status := t.status, inbox := rest
              buf := t.buf, cnt := t.cnt, prev42 := t.prev42, rx := t.rx }
      ∧ (e = .rxTimeout ∨ e = .ioFault →
          t = { s with phase := .idle, done := true, status := .sensorError, inbox := rest })
      ∧ (e = .rxByte → ∃ b, s.rx = b :: t.rx ∧
          t = { s with
                  phase := .idle, done := true, status := .checksumMismatch, inbox := rest
                  buf := s.buf.setIfInBounds s.cnt.val b, cnt := s.cnt + 1, rx := t.rx })
      ∧ (e = .rxTimeout ∨ e = .ioFault ∨ e = .rxByte ∨ ∃ f, e = .instr (.frame f)))
  ∧ (∀ (s t : State) (w : Encoded) (rest : List Input), s.phase = .idle → s.inbox = .instr w :: rest → step s = .next t →
      s.status ≠ .usageError → t.status = .usageError →
      t = { s with
              done := true, status := .usageError, inbox := rest, rvalid := false, op := .setMode })

/-- Rule R206: `MODE` changes only where a SET_MODE completes with OK, and then becomes `REQ_MODE`; otherwise only `reset` writes it. -/
def Obligations.ModeChangesOnlyAtAcknowledgedSetMode : Prop :=
  (∀ (s t : State) (e : Input) (rest : List Input), s.inbox = e :: rest → e ≠ .reset → step s = .next t → t.mode ≠ s.mode →
    s.op = .setMode ∧ t.op = .setMode ∧ t.mode = s.reqMode ∧ s.phase ≠ .idle ∧ t.phase = .idle ∧ t.done = true ∧ t.status = .ok)
  ∧ (∀ s : State, s.op = .setMode → (complete .ok s).mode = s.reqMode ∧ (complete .sensorError s).mode = s.mode
      ∧ (complete .checksumMismatch s).mode = s.mode)

/-- Rule R163: the reading is written, all twelve words of it from BUF, where a READ completes with OK and only there, and `RVALID` is set there and
only there. -/
def Obligations.ReadingIsCommittedOnlyByAnOkRead : Prop :=
  (∀ (s t : State) (e : Input) (rest : List Input), s.inbox = e :: rest → e ≠ .reset → step s = .next t →
    (t.reading ≠ s.reading ∨ (t.rvalid = true ∧ s.rvalid = false)) →
    s.op = .read ∧ t.op = .read ∧ s.phase ≠ .idle ∧ t.phase = .idle ∧ t.done = true ∧ t.status = .ok ∧ t.rvalid = true
      ∧ t.reading = codec (bufWords t.buf))
  ∧ (∀ (s : State) (st : Status), (st ≠ .ok ∨ s.op ≠ .read) →
      (complete st s).reading = s.reading ∧ (complete st s).rvalid = s.rvalid)
  ∧ (∀ s : State, s.op = .read →
      (complete .ok s).rvalid = true ∧ (complete .ok s).reading = codec (bufWords s.buf)
      ∧ ∀ (k : Nat) (_ : k < 12), (complete .ok s).reading[k] = (bufWords s.buf)[k + 1])

/-- Rule R233: ChecksumMismatch arises only after exactly `LEN` bytes have been captured, and only if they fail the check. -/
def Obligations.MismatchOnlyAfterAFullPayload : Prop :=
  ∀ (s t : State) (e : Input) (rest : List Input), s.inbox = e :: rest → step s = .next t →
    t.status = .checksumMismatch → s.status ≠ .checksumMismatch →
    (s.phase = .hunt ∨ s.phase = .capture) ∧ t.phase = .idle ∧ t.done = true ∧ t.cnt.val = lenBytes t.len
      ∧ check (capturedPayload t.buf t.len) = false

/-- The outputs (10_state.md section 6), with the codes of `PHASE`, `STATUS`, `OP`, `LEN` (10_state.md sections 2 and 5): each is a function of
the registers, `tx_data` is the cell `TXI` of TXBUF, and no reading is presented while `RVALID` is 0. -/
def Obligations.OutputsAreFunctionsOfTheRegisters : Prop :=
  (∀ s : State,
    (busy s = true ↔ phaseCode s.phase ≠ 0) ∧ (txValid s = true ↔ phaseCode s.phase = 1)
    ∧ (waiting s = true ↔ phaseCode s.phase = 2)
    ∧ (rxReady s = true ↔ phaseCode s.phase = 3 ∨ phaseCode s.phase = 4)
    ∧ (∀ h : s.txi.val < 7, txData s = some s.txbuf[s.txi.val])
    ∧ doneOut s = s.done ∧ (modeOut s = true ↔ s.mode = .active)
    ∧ (s.rvalid = true → readingOut s = some s.reading) ∧ (s.rvalid = false → readingOut s = none)
    ∧ (statusOut s = 0 ↔ s.status = .ok) ∧ (statusOut s = 1 ↔ s.status = .usageError)
    ∧ (statusOut s = 2 ↔ s.status = .sensorError) ∧ (statusOut s = 3 ↔ s.status = .checksumMismatch)
    ∧ (lenCode s.len).toNat = lenBytes s.len)
  ∧ (∀ (op : HostOp) (arg : U16), hostWordOp (hostWord op arg) = op ∧ hostWordArg (hostWord op arg) = arg)
  ∧ (phaseCode .idle = 0 ∧ phaseCode .tx = 1 ∧ phaseCode .wait = 2 ∧ phaseCode .hunt = 3 ∧ phaseCode .capture = 4)
  ∧ (opCode .read = 0 ∧ opCode .wakeup = 1 ∧ opCode .sleep = 2 ∧ opCode .setMode = 3)

/-- Results persist (45_session.md section 3, decision D20): in `IDLE` only an operation, a wire command or `reset` changes the result
registers, `MODE` or the reading. -/
def Obligations.ResultsPersistWhileIdle : Prop :=
  ∀ (s t : State) (e : Input) (rest : List Input), s.phase = .idle → s.inbox = e :: rest → step s = .next t →
    e ≠ .reset → (∀ w, e ≠ .instr w) →
    t.phase = .idle ∧ t.done = s.done ∧ t.status = s.status ∧ t.mode = s.mode ∧ t.rvalid = s.rvalid ∧ t.reading = s.reading

/-- The phase changes only along the edges of the table of phase transitions (45_session.md section 4). In a step on one event of the block the
pair is an edge, so nothing leads from `CAPTURE` to `HUNT` or from reception to `TX`, and the event has an entry in the table of 10_state.md section 6. In
a step on a whole frame, the model's own form (log entries 8 and 11, DESIGN CHOICE), it is an edge, or a request that expects a response has been loaded
and sent from `IDLE`, which for a READ needs `MODE` Passive. -/
def Obligations.PhaseChangesAlongTheTable : Prop :=
  (∀ (s t : State) (e : Input) (rest : List Input), s.inbox = e :: rest → isBlockEvent e = true → step s = .next t →
    t.phase ≠ s.phase → phaseEdge s.phase t.phase = true ∧ hasStep s.phase e = true)
  ∧ (∀ (s t : State) (f : List Byte) (rest : List Input), s.inbox = .instr (.frame f) :: rest → step s = .next t →
    t.phase ≠ s.phase →
    (phaseEdge s.phase t.phase = true ∧ (s.phase = .hunt ∨ s.phase = .capture))
    ∨ (s.phase = .idle ∧ t.phase = .wait ∧ t.expect = true ∧ t.txi = 7 ∧ (t.op = .read → s.mode = .passive)))

/-- RX grows only by what the sensor sends, at its tail, and is consumed only in `HUNT` and `CAPTURE`, from its head (20_memory.md section 2,
decision D22). The sensor's byte is appended; a received byte that has a step is the head, and it is removed; a whole frame from the sensor, the model's own form
(log entry 11, DESIGN CHOICE), is appended, and then a part of the queue is removed from the head, in `IDLE`, `TX` and `WAIT` none; on every other input, and
with nothing offered, RX stays as it is. -/
def Obligations.BytesAreConsumedOnlyWhileReceiving : Prop :=
  (∀ s t : State, s.inbox = [] → step s = .next t → t.rx = s.rx)
  ∧ (∀ (s t : State) (e : Input) (rest : List Input), s.inbox = e :: rest → step s = .next t →
    (∀ b, e = .sensorByte b → t.rx = s.rx ++ [b])
    ∧ (e = .rxByte →
        (∀ b bs, s.rx = b :: bs → acceptsByte s = true → t.rx = bs ∧ (s.phase = .hunt ∨ s.phase = .capture))
        ∧ (s.rx = [] ∨ acceptsByte s = false → t.rx = s.rx))
    ∧ (∀ p : Vector Byte 30, e = .instr (.frame (wireFrame p)) →
        t.rx <:+ s.rx ++ wireFrame p ∧ (s.phase = .idle ∨ s.phase = .tx ∨ s.phase = .wait → t.rx = s.rx ++ wireFrame p))
    ∧ (∀ p : Vector Byte 6, e = .instr (.frame (wireFrame p)) →
        t.rx <:+ s.rx ++ wireFrame p ∧ (s.phase = .idle ∨ s.phase = .tx ∨ s.phase = .wait → t.rx = s.rx ++ wireFrame p))
    ∧ ((∀ b, e ≠ .sensorByte b) → e ≠ .rxByte → (∀ p : Vector Byte 30, e ≠ .instr (.frame (wireFrame p))) →
        (∀ p : Vector Byte 6, e ≠ .instr (.frame (wireFrame p))) → t.rx = s.rx))

/-- TXS only grows at its tail (20_memory.md section 3): by one byte of TXBUF per `tx_accept`, by a whole request per wire command offered as one
step (the model's own form, log entry 8, DESIGN CHOICE), and by nothing else. -/
def Obligations.TransmittedBytesAreOnlyAppended : Prop :=
  ∀ s t : State, step s = .next t →
    s.txs <+: t.txs
    ∧ (t.txs ≠ s.txs → (s.inbox.head? = some .txAccept ∧ s.phase = .tx ∧ ∃ b, txData s = some b ∧ t.txs = s.txs ++ [b])
        ∨ (s.phase = .idle ∧ ∃ f, s.inbox.head? = some (.instr (.frame f)) ∧ t.txs = s.txs ++ f))

/-! ### Invariants -/

/-- Every step keeps the invariant of 10_state.md section 9, from every state that meets it. -/
def Obligations.EveryStepKeepsTheRegisterInvariant : Prop :=
  ∀ s t : State, RegisterInv s → step s = .next t → RegisterInv t

/-- The reset state meets both invariants. -/
def Obligations.ResetMeetsBothInvariants : Prop := RegisterInv State.reset ∧ OperationRecord State.reset

/-- Every step keeps the record of the operation in progress (30_encoding.md section 3, 44_command_protocol.md section 2, 45_session.md section 3,
20_memory.md section 8): the request loaded and sent is the operation's, PASSIVE_READ is sent only while `MODE` is Passive, a response is received only
after its request, `LEN` is the response's length, and the status reported is one the operation may report. -/
def Obligations.EveryStepKeepsTheOperationRecord : Prop :=
  ∀ s t : State, OperationRecord s → step s = .next t → OperationRecord t
end

