-- ==== Sys2Proof/Laws/State.lean ====
section
/-! SUPPORT. What each named update leaves in each field, true by rfl, so that no proof unfolds a record update. -/

namespace Sys2Proof.Machine

/-! ### latch -/

@[simp] theorem latch_mode (o : HostOp) (s : State) : (latch o s).mode = s.mode := rfl
@[simp] theorem latch_phase (o : HostOp) (s : State) : (latch o s).phase = s.phase := rfl
@[simp] theorem latch_op (o : HostOp) (s : State) : (latch o s).op = o := rfl
@[simp] theorem latch_reqMode (o : HostOp) (s : State) : (latch o s).reqMode = s.reqMode := rfl
@[simp] theorem latch_cmdOpcode (o : HostOp) (s : State) : (latch o s).cmdOpcode = s.cmdOpcode := rfl
@[simp] theorem latch_cmdData (o : HostOp) (s : State) : (latch o s).cmdData = s.cmdData := rfl
@[simp] theorem latch_expect (o : HostOp) (s : State) : (latch o s).expect = s.expect := rfl
@[simp] theorem latch_len (o : HostOp) (s : State) : (latch o s).len = s.len := rfl
@[simp] theorem latch_txbuf (o : HostOp) (s : State) : (latch o s).txbuf = s.txbuf := rfl
@[simp] theorem latch_txi (o : HostOp) (s : State) : (latch o s).txi = s.txi := rfl
@[simp] theorem latch_prev42 (o : HostOp) (s : State) : (latch o s).prev42 = s.prev42 := rfl
@[simp] theorem latch_cnt (o : HostOp) (s : State) : (latch o s).cnt = s.cnt := rfl
@[simp] theorem latch_buf (o : HostOp) (s : State) : (latch o s).buf = s.buf := rfl
@[simp] theorem latch_done (o : HostOp) (s : State) : (latch o s).done = false := rfl
@[simp] theorem latch_status (o : HostOp) (s : State) : (latch o s).status = .ok := rfl
@[simp] theorem latch_rvalid (o : HostOp) (s : State) : (latch o s).rvalid = false := rfl
@[simp] theorem latch_reading (o : HostOp) (s : State) : (latch o s).reading = s.reading := rfl
@[simp] theorem latch_rx (o : HostOp) (s : State) : (latch o s).rx = s.rx := rfl
@[simp] theorem latch_txs (o : HostOp) (s : State) : (latch o s).txs = s.txs := rfl
@[simp] theorem latch_inbox (o : HostOp) (s : State) : (latch o s).inbox = s.inbox := rfl

/-! ### loadCmd -/

@[simp] theorem loadCmd_mode (c : Byte) (d : U16) (r : Option RespLen) (s : State) : (loadCmd c d r s).mode = s.mode := rfl
@[simp] theorem loadCmd_phase (c : Byte) (d : U16) (r : Option RespLen) (s : State) : (loadCmd c d r s).phase = .tx := rfl
@[simp] theorem loadCmd_op (c : Byte) (d : U16) (r : Option RespLen) (s : State) : (loadCmd c d r s).op = s.op := rfl
@[simp] theorem loadCmd_reqMode (c : Byte) (d : U16) (r : Option RespLen) (s : State) : (loadCmd c d r s).reqMode = s.reqMode := rfl
@[simp] theorem loadCmd_cmdOpcode (c : Byte) (d : U16) (r : Option RespLen) (s : State) : (loadCmd c d r s).cmdOpcode = c := rfl
@[simp] theorem loadCmd_cmdData (c : Byte) (d : U16) (r : Option RespLen) (s : State) : (loadCmd c d r s).cmdData = d := rfl
@[simp] theorem loadCmd_expect (c : Byte) (d : U16) (r : Option RespLen) (s : State) : (loadCmd c d r s).expect = r.isSome := rfl
@[simp] theorem loadCmd_len (c : Byte) (d : U16) (r : Option RespLen) (s : State) : (loadCmd c d r s).len = r.getD s.len := rfl
@[simp] theorem loadCmd_txbuf (c : Byte) (d : U16) (r : Option RespLen) (s : State) : (loadCmd c d r s).txbuf = encodeCommand c d := rfl
@[simp] theorem loadCmd_txi (c : Byte) (d : U16) (r : Option RespLen) (s : State) : (loadCmd c d r s).txi = 0 := rfl
@[simp] theorem loadCmd_prev42 (c : Byte) (d : U16) (r : Option RespLen) (s : State) : (loadCmd c d r s).prev42 = s.prev42 := rfl
@[simp] theorem loadCmd_cnt (c : Byte) (d : U16) (r : Option RespLen) (s : State) : (loadCmd c d r s).cnt = s.cnt := rfl
@[simp] theorem loadCmd_buf (c : Byte) (d : U16) (r : Option RespLen) (s : State) : (loadCmd c d r s).buf = s.buf := rfl
@[simp] theorem loadCmd_done (c : Byte) (d : U16) (r : Option RespLen) (s : State) : (loadCmd c d r s).done = s.done := rfl
@[simp] theorem loadCmd_status (c : Byte) (d : U16) (r : Option RespLen) (s : State) : (loadCmd c d r s).status = s.status := rfl
@[simp] theorem loadCmd_rvalid (c : Byte) (d : U16) (r : Option RespLen) (s : State) : (loadCmd c d r s).rvalid = s.rvalid := rfl
@[simp] theorem loadCmd_reading (c : Byte) (d : U16) (r : Option RespLen) (s : State) : (loadCmd c d r s).reading = s.reading := rfl
@[simp] theorem loadCmd_rx (c : Byte) (d : U16) (r : Option RespLen) (s : State) : (loadCmd c d r s).rx = s.rx := rfl
@[simp] theorem loadCmd_txs (c : Byte) (d : U16) (r : Option RespLen) (s : State) : (loadCmd c d r s).txs = s.txs := rfl
@[simp] theorem loadCmd_inbox (c : Byte) (d : U16) (r : Option RespLen) (s : State) : (loadCmd c d r s).inbox = s.inbox := rfl

/-! ### enterHunt -/

@[simp] theorem enterHunt_mode (s : State) : (enterHunt s).mode = s.mode := rfl
@[simp] theorem enterHunt_phase (s : State) : (enterHunt s).phase = .hunt := rfl
@[simp] theorem enterHunt_op (s : State) : (enterHunt s).op = s.op := rfl
@[simp] theorem enterHunt_reqMode (s : State) : (enterHunt s).reqMode = s.reqMode := rfl
@[simp] theorem enterHunt_cmdOpcode (s : State) : (enterHunt s).cmdOpcode = s.cmdOpcode := rfl
@[simp] theorem enterHunt_cmdData (s : State) : (enterHunt s).cmdData = s.cmdData := rfl
@[simp] theorem enterHunt_expect (s : State) : (enterHunt s).expect = s.expect := rfl
@[simp] theorem enterHunt_len (s : State) : (enterHunt s).len = s.len := rfl
@[simp] theorem enterHunt_txbuf (s : State) : (enterHunt s).txbuf = s.txbuf := rfl
@[simp] theorem enterHunt_txi (s : State) : (enterHunt s).txi = s.txi := rfl
@[simp] theorem enterHunt_prev42 (s : State) : (enterHunt s).prev42 = false := rfl
@[simp] theorem enterHunt_cnt (s : State) : (enterHunt s).cnt = 0 := rfl
@[simp] theorem enterHunt_buf (s : State) : (enterHunt s).buf = s.buf := rfl
@[simp] theorem enterHunt_done (s : State) : (enterHunt s).done = s.done := rfl
@[simp] theorem enterHunt_status (s : State) : (enterHunt s).status = s.status := rfl
@[simp] theorem enterHunt_rvalid (s : State) : (enterHunt s).rvalid = s.rvalid := rfl
@[simp] theorem enterHunt_reading (s : State) : (enterHunt s).reading = s.reading := rfl
@[simp] theorem enterHunt_rx (s : State) : (enterHunt s).rx = s.rx := rfl
@[simp] theorem enterHunt_txs (s : State) : (enterHunt s).txs = s.txs := rfl
@[simp] theorem enterHunt_inbox (s : State) : (enterHunt s).inbox = s.inbox := rfl

/-! ### complete -/

@[simp] theorem complete_mode (st : Status) (s : State) : (complete st s).mode = if st = .ok ∧ s.op = .setMode then s.reqMode else s.mode := rfl
@[simp] theorem complete_phase (st : Status) (s : State) : (complete st s).phase = .idle := rfl
@[simp] theorem complete_op (st : Status) (s : State) : (complete st s).op = s.op := rfl
@[simp] theorem complete_reqMode (st : Status) (s : State) : (complete st s).reqMode = s.reqMode := rfl
@[simp] theorem complete_cmdOpcode (st : Status) (s : State) : (complete st s).cmdOpcode = s.cmdOpcode := rfl
@[simp] theorem complete_cmdData (st : Status) (s : State) : (complete st s).cmdData = s.cmdData := rfl
@[simp] theorem complete_expect (st : Status) (s : State) : (complete st s).expect = s.expect := rfl
@[simp] theorem complete_len (st : Status) (s : State) : (complete st s).len = s.len := rfl
@[simp] theorem complete_txbuf (st : Status) (s : State) : (complete st s).txbuf = s.txbuf := rfl
@[simp] theorem complete_txi (st : Status) (s : State) : (complete st s).txi = s.txi := rfl
@[simp] theorem complete_prev42 (st : Status) (s : State) : (complete st s).prev42 = s.prev42 := rfl
@[simp] theorem complete_cnt (st : Status) (s : State) : (complete st s).cnt = s.cnt := rfl
@[simp] theorem complete_buf (st : Status) (s : State) : (complete st s).buf = s.buf := rfl
@[simp] theorem complete_done (st : Status) (s : State) : (complete st s).done = true := rfl
@[simp] theorem complete_status (st : Status) (s : State) : (complete st s).status = st := rfl
@[simp] theorem complete_rvalid (st : Status) (s : State) : (complete st s).rvalid = if st = .ok ∧ s.op = .read then true else s.rvalid := rfl
@[simp] theorem complete_reading (st : Status) (s : State) : (complete st s).reading = if st = .ok ∧ s.op = .read then codec (bufWords s.buf) else s.reading := rfl
@[simp] theorem complete_rx (st : Status) (s : State) : (complete st s).rx = s.rx := rfl
@[simp] theorem complete_txs (st : Status) (s : State) : (complete st s).txs = s.txs := rfl
@[simp] theorem complete_inbox (st : Status) (s : State) : (complete st s).inbox = s.inbox := rfl

/-! ### usageError -/

@[simp] theorem usageError_mode (s : State) : (usageError s).mode = s.mode := rfl
@[simp] theorem usageError_phase (s : State) : (usageError s).phase = .idle := rfl
@[simp] theorem usageError_op (s : State) : (usageError s).op = s.op := rfl
@[simp] theorem usageError_reqMode (s : State) : (usageError s).reqMode = s.reqMode := rfl
@[simp] theorem usageError_cmdOpcode (s : State) : (usageError s).cmdOpcode = s.cmdOpcode := rfl
@[simp] theorem usageError_cmdData (s : State) : (usageError s).cmdData = s.cmdData := rfl
@[simp] theorem usageError_expect (s : State) : (usageError s).expect = s.expect := rfl
@[simp] theorem usageError_len (s : State) : (usageError s).len = s.len := rfl
@[simp] theorem usageError_txbuf (s : State) : (usageError s).txbuf = s.txbuf := rfl
@[simp] theorem usageError_txi (s : State) : (usageError s).txi = s.txi := rfl
@[simp] theorem usageError_prev42 (s : State) : (usageError s).prev42 = s.prev42 := rfl
@[simp] theorem usageError_cnt (s : State) : (usageError s).cnt = s.cnt := rfl
@[simp] theorem usageError_buf (s : State) : (usageError s).buf = s.buf := rfl
@[simp] theorem usageError_done (s : State) : (usageError s).done = true := rfl
@[simp] theorem usageError_status (s : State) : (usageError s).status = .usageError := rfl
@[simp] theorem usageError_rvalid (s : State) : (usageError s).rvalid = s.rvalid := rfl
@[simp] theorem usageError_reading (s : State) : (usageError s).reading = s.reading := rfl
@[simp] theorem usageError_rx (s : State) : (usageError s).rx = s.rx := rfl
@[simp] theorem usageError_txs (s : State) : (usageError s).txs = s.txs := rfl
@[simp] theorem usageError_inbox (s : State) : (usageError s).inbox = s.inbox := rfl

/-! ### sendByte -/

@[simp] theorem sendByte_mode (b : Byte) (s : State) : (sendByte b s).mode = s.mode := rfl
@[simp] theorem sendByte_phase (b : Byte) (s : State) : (sendByte b s).phase = s.phase := rfl
@[simp] theorem sendByte_op (b : Byte) (s : State) : (sendByte b s).op = s.op := rfl
@[simp] theorem sendByte_reqMode (b : Byte) (s : State) : (sendByte b s).reqMode = s.reqMode := rfl
@[simp] theorem sendByte_cmdOpcode (b : Byte) (s : State) : (sendByte b s).cmdOpcode = s.cmdOpcode := rfl
@[simp] theorem sendByte_cmdData (b : Byte) (s : State) : (sendByte b s).cmdData = s.cmdData := rfl
@[simp] theorem sendByte_expect (b : Byte) (s : State) : (sendByte b s).expect = s.expect := rfl
@[simp] theorem sendByte_len (b : Byte) (s : State) : (sendByte b s).len = s.len := rfl
@[simp] theorem sendByte_txbuf (b : Byte) (s : State) : (sendByte b s).txbuf = s.txbuf := rfl
@[simp] theorem sendByte_txi (b : Byte) (s : State) : (sendByte b s).txi = s.txi + 1 := rfl
@[simp] theorem sendByte_prev42 (b : Byte) (s : State) : (sendByte b s).prev42 = s.prev42 := rfl
@[simp] theorem sendByte_cnt (b : Byte) (s : State) : (sendByte b s).cnt = s.cnt := rfl
@[simp] theorem sendByte_buf (b : Byte) (s : State) : (sendByte b s).buf = s.buf := rfl
@[simp] theorem sendByte_done (b : Byte) (s : State) : (sendByte b s).done = s.done := rfl
@[simp] theorem sendByte_status (b : Byte) (s : State) : (sendByte b s).status = s.status := rfl
@[simp] theorem sendByte_rvalid (b : Byte) (s : State) : (sendByte b s).rvalid = s.rvalid := rfl
@[simp] theorem sendByte_reading (b : Byte) (s : State) : (sendByte b s).reading = s.reading := rfl
@[simp] theorem sendByte_rx (b : Byte) (s : State) : (sendByte b s).rx = s.rx := rfl
@[simp] theorem sendByte_txs (b : Byte) (s : State) : (sendByte b s).txs = s.txs ++ [b] := rfl
@[simp] theorem sendByte_inbox (b : Byte) (s : State) : (sendByte b s).inbox = s.inbox := rfl

/-! ### memWrite8 -/

@[simp] theorem memWrite8_mode (a : Nat) (v : Byte) (s : State) : (memWrite8 a v s).mode = s.mode := rfl
@[simp] theorem memWrite8_phase (a : Nat) (v : Byte) (s : State) : (memWrite8 a v s).phase = s.phase := rfl
@[simp] theorem memWrite8_op (a : Nat) (v : Byte) (s : State) : (memWrite8 a v s).op = s.op := rfl
@[simp] theorem memWrite8_reqMode (a : Nat) (v : Byte) (s : State) : (memWrite8 a v s).reqMode = s.reqMode := rfl
@[simp] theorem memWrite8_cmdOpcode (a : Nat) (v : Byte) (s : State) : (memWrite8 a v s).cmdOpcode = s.cmdOpcode := rfl
@[simp] theorem memWrite8_cmdData (a : Nat) (v : Byte) (s : State) : (memWrite8 a v s).cmdData = s.cmdData := rfl
@[simp] theorem memWrite8_expect (a : Nat) (v : Byte) (s : State) : (memWrite8 a v s).expect = s.expect := rfl
@[simp] theorem memWrite8_len (a : Nat) (v : Byte) (s : State) : (memWrite8 a v s).len = s.len := rfl
@[simp] theorem memWrite8_txbuf (a : Nat) (v : Byte) (s : State) : (memWrite8 a v s).txbuf = s.txbuf := rfl
@[simp] theorem memWrite8_txi (a : Nat) (v : Byte) (s : State) : (memWrite8 a v s).txi = s.txi := rfl
@[simp] theorem memWrite8_prev42 (a : Nat) (v : Byte) (s : State) : (memWrite8 a v s).prev42 = s.prev42 := rfl
@[simp] theorem memWrite8_cnt (a : Nat) (v : Byte) (s : State) : (memWrite8 a v s).cnt = s.cnt := rfl
@[simp] theorem memWrite8_buf (a : Nat) (v : Byte) (s : State) : (memWrite8 a v s).buf = s.buf.setIfInBounds a v := rfl
@[simp] theorem memWrite8_done (a : Nat) (v : Byte) (s : State) : (memWrite8 a v s).done = s.done := rfl
@[simp] theorem memWrite8_status (a : Nat) (v : Byte) (s : State) : (memWrite8 a v s).status = s.status := rfl
@[simp] theorem memWrite8_rvalid (a : Nat) (v : Byte) (s : State) : (memWrite8 a v s).rvalid = s.rvalid := rfl
@[simp] theorem memWrite8_reading (a : Nat) (v : Byte) (s : State) : (memWrite8 a v s).reading = s.reading := rfl
@[simp] theorem memWrite8_rx (a : Nat) (v : Byte) (s : State) : (memWrite8 a v s).rx = s.rx := rfl
@[simp] theorem memWrite8_txs (a : Nat) (v : Byte) (s : State) : (memWrite8 a v s).txs = s.txs := rfl
@[simp] theorem memWrite8_inbox (a : Nat) (v : Byte) (s : State) : (memWrite8 a v s).inbox = s.inbox := rfl

/-! ### storeByte -/

@[simp] theorem storeByte_mode (b : Byte) (s : State) : (storeByte b s).mode = s.mode := rfl
@[simp] theorem storeByte_phase (b : Byte) (s : State) : (storeByte b s).phase = s.phase := rfl
@[simp] theorem storeByte_op (b : Byte) (s : State) : (storeByte b s).op = s.op := rfl
@[simp] theorem storeByte_reqMode (b : Byte) (s : State) : (storeByte b s).reqMode = s.reqMode := rfl
@[simp] theorem storeByte_cmdOpcode (b : Byte) (s : State) : (storeByte b s).cmdOpcode = s.cmdOpcode := rfl
@[simp] theorem storeByte_cmdData (b : Byte) (s : State) : (storeByte b s).cmdData = s.cmdData := rfl
@[simp] theorem storeByte_expect (b : Byte) (s : State) : (storeByte b s).expect = s.expect := rfl
@[simp] theorem storeByte_len (b : Byte) (s : State) : (storeByte b s).len = s.len := rfl
@[simp] theorem storeByte_txbuf (b : Byte) (s : State) : (storeByte b s).txbuf = s.txbuf := rfl
@[simp] theorem storeByte_txi (b : Byte) (s : State) : (storeByte b s).txi = s.txi := rfl
@[simp] theorem storeByte_prev42 (b : Byte) (s : State) : (storeByte b s).prev42 = s.prev42 := rfl
@[simp] theorem storeByte_cnt (b : Byte) (s : State) : (storeByte b s).cnt = s.cnt + 1 := rfl
@[simp] theorem storeByte_buf (b : Byte) (s : State) : (storeByte b s).buf = s.buf.setIfInBounds s.cnt.val b := rfl
@[simp] theorem storeByte_done (b : Byte) (s : State) : (storeByte b s).done = s.done := rfl
@[simp] theorem storeByte_status (b : Byte) (s : State) : (storeByte b s).status = s.status := rfl
@[simp] theorem storeByte_rvalid (b : Byte) (s : State) : (storeByte b s).rvalid = s.rvalid := rfl
@[simp] theorem storeByte_reading (b : Byte) (s : State) : (storeByte b s).reading = s.reading := rfl
@[simp] theorem storeByte_rx (b : Byte) (s : State) : (storeByte b s).rx = s.rx := rfl
@[simp] theorem storeByte_txs (b : Byte) (s : State) : (storeByte b s).txs = s.txs := rfl
@[simp] theorem storeByte_inbox (b : Byte) (s : State) : (storeByte b s).inbox = s.inbox := rfl

/-! ### sensorByte -/

@[simp] theorem sensorByte_mode (b : Byte) (s : State) : (sensorByte b s).mode = s.mode := rfl
@[simp] theorem sensorByte_phase (b : Byte) (s : State) : (sensorByte b s).phase = s.phase := rfl
@[simp] theorem sensorByte_op (b : Byte) (s : State) : (sensorByte b s).op = s.op := rfl
@[simp] theorem sensorByte_reqMode (b : Byte) (s : State) : (sensorByte b s).reqMode = s.reqMode := rfl
@[simp] theorem sensorByte_cmdOpcode (b : Byte) (s : State) : (sensorByte b s).cmdOpcode = s.cmdOpcode := rfl
@[simp] theorem sensorByte_cmdData (b : Byte) (s : State) : (sensorByte b s).cmdData = s.cmdData := rfl
@[simp] theorem sensorByte_expect (b : Byte) (s : State) : (sensorByte b s).expect = s.expect := rfl
@[simp] theorem sensorByte_len (b : Byte) (s : State) : (sensorByte b s).len = s.len := rfl
@[simp] theorem sensorByte_txbuf (b : Byte) (s : State) : (sensorByte b s).txbuf = s.txbuf := rfl
@[simp] theorem sensorByte_txi (b : Byte) (s : State) : (sensorByte b s).txi = s.txi := rfl
@[simp] theorem sensorByte_prev42 (b : Byte) (s : State) : (sensorByte b s).prev42 = s.prev42 := rfl
@[simp] theorem sensorByte_cnt (b : Byte) (s : State) : (sensorByte b s).cnt = s.cnt := rfl
@[simp] theorem sensorByte_buf (b : Byte) (s : State) : (sensorByte b s).buf = s.buf := rfl
@[simp] theorem sensorByte_done (b : Byte) (s : State) : (sensorByte b s).done = s.done := rfl
@[simp] theorem sensorByte_status (b : Byte) (s : State) : (sensorByte b s).status = s.status := rfl
@[simp] theorem sensorByte_rvalid (b : Byte) (s : State) : (sensorByte b s).rvalid = s.rvalid := rfl
@[simp] theorem sensorByte_reading (b : Byte) (s : State) : (sensorByte b s).reading = s.reading := rfl
@[simp] theorem sensorByte_rx (b : Byte) (s : State) : (sensorByte b s).rx = s.rx ++ [b] := rfl
@[simp] theorem sensorByte_txs (b : Byte) (s : State) : (sensorByte b s).txs = s.txs := rfl
@[simp] theorem sensorByte_inbox (b : Byte) (s : State) : (sensorByte b s).inbox = s.inbox := rfl

/-! ### reset -/

@[simp] theorem reset_mode (s : State) : (reset s).mode = State.reset.mode := rfl
@[simp] theorem reset_phase (s : State) : (reset s).phase = State.reset.phase := rfl
@[simp] theorem reset_op (s : State) : (reset s).op = State.reset.op := rfl
@[simp] theorem reset_reqMode (s : State) : (reset s).reqMode = State.reset.reqMode := rfl
@[simp] theorem reset_cmdOpcode (s : State) : (reset s).cmdOpcode = State.reset.cmdOpcode := rfl
@[simp] theorem reset_cmdData (s : State) : (reset s).cmdData = State.reset.cmdData := rfl
@[simp] theorem reset_expect (s : State) : (reset s).expect = State.reset.expect := rfl
@[simp] theorem reset_len (s : State) : (reset s).len = State.reset.len := rfl
@[simp] theorem reset_txbuf (s : State) : (reset s).txbuf = State.reset.txbuf := rfl
@[simp] theorem reset_txi (s : State) : (reset s).txi = State.reset.txi := rfl
@[simp] theorem reset_prev42 (s : State) : (reset s).prev42 = State.reset.prev42 := rfl
@[simp] theorem reset_cnt (s : State) : (reset s).cnt = State.reset.cnt := rfl
@[simp] theorem reset_buf (s : State) : (reset s).buf = State.reset.buf := rfl
@[simp] theorem reset_done (s : State) : (reset s).done = State.reset.done := rfl
@[simp] theorem reset_status (s : State) : (reset s).status = State.reset.status := rfl
@[simp] theorem reset_rvalid (s : State) : (reset s).rvalid = State.reset.rvalid := rfl
@[simp] theorem reset_reading (s : State) : (reset s).reading = State.reset.reading := rfl
@[simp] theorem reset_rx (s : State) : (reset s).rx = s.rx := rfl
@[simp] theorem reset_txs (s : State) : (reset s).txs = s.txs := rfl
@[simp] theorem reset_inbox (s : State) : (reset s).inbox = s.inbox := rfl

end Sys2Proof.Machine
end

