-- ==== Sys2Proof/Laws/Ops.lean ====
section
/-! SUPPORT. One lemma for each shared operation that says once everything it can do. A proof cites these instead of
unfolding the operation. -/

namespace Sys2Proof.Machine

/-! ### BUF as memory -/

/-- A cell of BUF after a write: the written cell, if it exists, and every other cell as before. -/
theorem memRead8_memWrite8 (a i : Nat) (v : Byte) (s : State) :
    memRead8 (memWrite8 a v s) i = if i = a ∧ a < 30 then some v else memRead8 s i := by
  unfold memRead8 memWrite8
  rw [Vector.getElem?_setIfInBounds]
  by_cases h : i = a
  · subst h
    by_cases h' : i < 30
    · simp [h']
    · simp [h']
  · simp [h, Ne.symm h]

/-- A two-byte read at an even index is a word (20_memory.md rule R58). -/
theorem memRead16_eq_word (s : State) (i : Nat) (h : i < 15) : memRead16 s (2 * i) = some (bufWords s.buf)[i] := by
  have h0 : memRead8 s (2 * i) = some s.buf[2 * i] := by simp [memRead8, show 2 * i < 30 by omega]
  have h1 : memRead8 s (2 * i + 1) = some s.buf[2 * i + 1] := by simp [memRead8, show 2 * i + 1 < 30 by omega]
  simp only [memRead16, h0, h1, bufWords, words, Vector.getElem_ofFn]

/-- The captured payload is the first `LEN` cells of BUF. -/
theorem capturedPayload_toList (buf : Vector Byte 30) (l : RespLen) :
    (capturedPayload buf l).toList = buf.toList.take (lenBytes l) := by
  cases l with
  | ack =>
    show (Vector.ofFn (n := 6) fun i => buf[i.val]).toList = buf.toList.take 6
    apply List.ext_getElem
    · simp
    · intro i h _; simp
  | reading =>
    show buf.toList = buf.toList.take 30
    rw [List.take_of_length_le (by simp)]

/-- The status of a full payload is OK exactly when it passes the check. -/
theorem verdict_ok (s : State) : verdict s = .ok ↔ check (capturedPayload s.buf s.len) = true := by
  unfold verdict
  split <;> simp [*]

/-! ### Starting and dispatching -/

theorem whenIdle_idle {why : Refusal} {f : State → State} {s : State} (h : s.phase = .idle) :
    whenIdle why f s = .next (f s) := by simp [whenIdle, h]

theorem whenIdle_busy {why : Refusal} {f : State → State} {s : State} (h : s.phase ≠ .idle) :
    whenIdle why f s = .refused why := by
  unfold whenIdle
  split <;> first | exact absurd ‹s.phase = .idle› h | rfl

/-- `whenIdle` answers a next state only in `IDLE`, and then that of its operation. -/
theorem whenIdle_next {why : Refusal} {f : State → State} {s t : State} (h : whenIdle why f s = .next t) :
    s.phase = .idle ∧ t = f s := by
  by_cases hp : s.phase = .idle
  · rw [whenIdle_idle hp] at h
    exact ⟨hp, by injection h with h; exact h.symm⟩
  · rw [whenIdle_busy hp] at h
    exact absurd h (by simp)

/-- What a `host_start` step is: one of the five starts, or the rejection of an argument. -/
theorem hostStart_cases (op : HostOp) (arg : U16) (s : State) :
    (op = .read ∧ s.mode = .active ∧ hostStart op arg s = startReadActive (latch .read s))
    ∨ (op = .read ∧ s.mode = .passive ∧ hostStart op arg s = startReadPassive (latch .read s))
    ∨ (op = .wakeup ∧ hostStart op arg s = startWakeup (latch .wakeup s))
    ∨ (op = .sleep ∧ hostStart op arg s = startSleep (latch .sleep s))
    ∨ (op = .setMode ∧ (arg = 0 ∨ arg = 1) ∧ hostStart op arg s = startSetMode arg (latch .setMode s))
    ∨ (op = .setMode ∧ ¬ (arg = 0 ∨ arg = 1) ∧ hostStart op arg s = usageError (latch .setMode s)) := by
  cases op with
  | read => cases hm : s.mode <;> simp [hostStart, hm]
  | wakeup => simp [hostStart]
  | sleep => simp [hostStart]
  | setMode =>
    by_cases ha : arg = 0 ∨ arg = 1
    · exact .inr (.inr (.inr (.inr (.inl ⟨rfl, ha, if_pos ha⟩))))
    · exact .inr (.inr (.inr (.inr (.inr ⟨rfl, ha, if_neg ha⟩))))

/-! ### Events -/

/-- What `tx_accept` does: a byte is sent and the frame goes on, is over, or is over and complete; or nothing. -/
theorem txAccept_cases (s : State) :
    (s.phase = .tx ∧ ∃ h : s.txi.val < 7,
      (s.txi.val < 6 ∧ txAccept s = sendByte s.txbuf[s.txi.val] s)
      ∨ (s.txi.val = 6 ∧ s.expect = true ∧ txAccept s = { sendByte s.txbuf[s.txi.val] s with phase := .wait })
      ∨ (s.txi.val = 6 ∧ s.expect = false ∧ txAccept s = complete .ok (sendByte s.txbuf[s.txi.val] s)))
    ∨ ((s.phase ≠ .tx ∨ s.txi.val = 7) ∧ txAccept s = s) := by
  by_cases hp : s.phase = .tx
  · by_cases h7 : s.txi.val < 7
    · left
      have hd : txData s = some s.txbuf[s.txi.val] := by simp [txData, h7]
      refine ⟨hp, h7, ?_⟩
      by_cases h6 : s.txi.val < 6
      · left; exact ⟨h6, by simp [txAccept, hp, hd, h6]⟩
      · right
        have h6' : s.txi.val = 6 := by omega
        cases he : s.expect
        · right; exact ⟨h6', rfl, by simp [txAccept, hp, hd, h6, he]⟩
        · left; exact ⟨h6', rfl, by simp [txAccept, hp, hd, h6, he]⟩
    · right
      have hd : txData s = none := by simp [txData]; omega
      exact ⟨Or.inr (by omega), by simp [txAccept, hd]⟩
  · right
    refine ⟨Or.inl hp, ?_⟩
    unfold txAccept
    split
    · exact absurd ‹_› hp
    · rfl

/-- What `wait_done` does. -/
theorem waitDone_cases (s : State) :
    (s.phase = .wait ∧ waitDone s = enterHunt s) ∨ (s.phase ≠ .wait ∧ waitDone s = s) := by
  unfold waitDone
  cases h : s.phase <;> simp

/-- What `rx_byte(b)` does where the block takes bytes. -/
theorem rxByte_cases (b : Byte) (s : State) (ha : acceptsByte s = true) :
    (s.phase = .hunt ∧ s.prev42 = true ∧ b = Config.mark1
      ∧ rxByte b s = { s with phase := .capture, cnt := 0, prev42 := false })
    ∨ (s.phase = .hunt ∧ ¬ (s.prev42 = true ∧ b = Config.mark1) ∧ rxByte b s = { s with prev42 := b == Config.mark0 })
    ∨ (s.phase = .capture ∧ s.cnt.val + 1 < lenBytes s.len ∧ rxByte b s = storeByte b s)
    ∨ (s.phase = .capture ∧ s.cnt.val + 1 = lenBytes s.len
      ∧ rxByte b s = complete (verdict (storeByte b s)) (storeByte b s)) := by
  cases hp : s.phase with
  | hunt =>
    by_cases h : s.prev42 = true ∧ b = Config.mark1
    · left; simp [rxByte, hp, huntStep, h.1, h.2]
    · right; left
      refine ⟨rfl, h, ?_⟩
      simp only [rxByte, hp, huntStep, if_neg h]
  | capture =>
    right; right
    have hle : s.cnt.val + 1 ≤ lenBytes s.len := by simpa [acceptsByte, hp] using ha
    rcases Nat.lt_or_eq_of_le hle with h | h
    · left; simp [rxByte, hp, captureStep, h]
    · right; simp [rxByte, hp, captureStep, h]
  | idle => simp [acceptsByte, hp] at ha
  | tx => simp [acceptsByte, hp] at ha
  | wait => simp [acceptsByte, hp] at ha

/-- The block takes bytes only in `HUNT` and `CAPTURE`. -/
theorem acceptsByte_phase {s : State} (h : acceptsByte s = true) : s.phase = .hunt ∨ s.phase = .capture := by
  cases hp : s.phase <;> simp_all [acceptsByte]

/-- What the offer of a received byte does. -/
theorem takeRxByte_cases (s : State) :
    (∃ b rest, s.rx = b :: rest ∧ acceptsByte s = true ∧ takeRxByte s = rxByte b { s with rx := rest })
    ∨ ((s.rx = [] ∨ acceptsByte s = false) ∧ takeRxByte s = s) := by
  unfold takeRxByte
  cases hr : s.rx with
  | nil => simp
  | cons b rest => cases ha : acceptsByte s <;> simp

/-- What a timeout does. -/
theorem takeRxTimeout_cases (s : State) :
    (s.rx = [] ∧ (s.phase = .hunt ∨ s.phase = .capture) ∧ takeRxTimeout s = complete .sensorError s)
    ∨ ((s.rx ≠ [] ∨ (s.phase ≠ .hunt ∧ s.phase ≠ .capture)) ∧ takeRxTimeout s = s) := by
  unfold takeRxTimeout rxTimeout
  cases hr : s.rx with
  | nil => cases hp : s.phase <;> simp
  | cons b rest => simp

/-- What an I/O fault does. -/
theorem ioFault_cases (s : State) :
    ((s.phase = .tx ∨ s.phase = .hunt ∨ s.phase = .capture) ∧ ioFault s = complete .sensorError s)
    ∨ ((s.phase = .idle ∨ s.phase = .wait) ∧ ioFault s = s) := by
  unfold ioFault
  cases hp : s.phase <;> simp

/-! ### Queues of bytes -/

/-- Whatever holds before a queue is handed over, is kept by every byte the block takes, and does not speak of RX,
holds afterwards. -/
theorem handOver_preserves {P : State → Prop} (hrx : ∀ s r, P s → P { s with rx := r })
    (hb : ∀ b s, acceptsByte s = true → P s → P (rxByte b s)) :
    ∀ (bs : List Byte) (s : State), P s → P (handOver bs s)
  | [], s, h => hrx s [] h
  | b :: bs, s, h => by
    unfold handOver
    cases ha : acceptsByte s with
    | true => simpa using handOver_preserves hrx hb bs _ (hb b s ha h)
    | false => simpa using hrx s (b :: bs) h

/-- A block that takes no byte leaves the whole queue. -/
theorem handOver_of_not_accepts {s : State} (h : acceptsByte s = false) (bs : List Byte) :
    handOver bs s = { s with rx := bs } := by
  cases bs <;> simp [handOver, h]

/-- Whatever every `tx_accept` keeps, the transmission of any number of bytes keeps. -/
theorem acceptBytes_preserves {P : State → Prop} (h : ∀ s, P s → P (txAccept s)) :
    ∀ (n : Nat) (s : State), P s → P (acceptBytes n s)
  | 0, _, hs => hs
  | n + 1, s, hs => acceptBytes_preserves h n _ (h s hs)

theorem acceptBytes_succ (n : Nat) (s : State) : acceptBytes (n + 1) s = txAccept (acceptBytes n s) := by
  induction n generalizing s with
  | zero => rfl
  | succ n ih => exact ih (txAccept s)

/-! ### RX and the inbox

The block's own steps neither read nor write them. -/

theorem acceptsByte_env (s : State) (r : List Byte) (l : List Input) :
    acceptsByte { s with rx := r, inbox := l } = acceptsByte s := rfl

theorem rxByte_env (b : Byte) (s : State) (r : List Byte) (l : List Input) :
    rxByte b { s with rx := r, inbox := l } = { rxByte b s with rx := r, inbox := l } := by
  rcases s with ⟨mode, phase⟩
  cases phase
  case hunt => simp only [rxByte, huntStep]; split <;> rfl
  case capture => simp only [rxByte, captureStep]; split <;> [rfl; split <;> rfl]
  all_goals rfl

theorem txAccept_env (s : State) (r : List Byte) (l : List Input) :
    txAccept { s with rx := r, inbox := l } = { txAccept s with rx := r, inbox := l } := by
  rcases s with ⟨mode, phase, op, reqMode, cmdOpcode, cmdData, expect, len, txbuf, txi⟩
  cases phase
  case tx =>
    simp only [txAccept, txData]
    cases txbuf[txi.val]? with
    | none => rfl
    | some b => simp only; split <;> [rfl; split <;> rfl]
  all_goals rfl

theorem acceptBytes_env (n : Nat) (s : State) (r : List Byte) (l : List Input) :
    acceptBytes n { s with rx := r, inbox := l } = { acceptBytes n s with rx := r, inbox := l } := by
  induction n generalizing s with
  | zero => rfl
  | succ n ih =>
    show acceptBytes n (txAccept _) = _
    rw [txAccept_env, ih]
    rfl

/-- What is queued beforehand does not matter to the handing over of a given queue. -/
theorem handOver_env (bs : List Byte) (s : State) (r : List Byte) (l : List Input) :
    handOver bs { s with rx := r, inbox := l } = { handOver bs s with inbox := l } := by
  induction bs generalizing s r with
  | nil => rfl
  | cons b bs ih =>
    simp only [handOver]
    rw [acceptsByte_env]
    cases acceptsByte s with
    | false => rfl
    | true => simp only [if_true]; rw [rxByte_env, ih]

/-! ### exec and step -/

/-- The word of a host operation is `host_start` with its two operands, whichever row it is. -/
theorem exec_decodeHost (m : Mode) (h : HostWord) (s : State) :
    exec (decodeHost m h) s = whenIdle .hostStartWhileBusy (hostStart (hostWordOp h) (hostWordArg h)) s := by
  unfold decodeHost
  cases hop : hostWordOp h with
  | read => cases m <;> rfl
  | wakeup => rfl
  | sleep => rfl
  | setMode =>
    simp only
    split
    · rename_i ha; rw [ha]; rfl
    · split
      · rename_i ha; rw [ha]; rfl
      · rfl

/-- A wire command in `MODE` Passive is the sending of READ's request; in `MODE` Active nothing is sent. -/
theorem sendPassiveRead_cases (s : State) :
    (s.mode = .passive ∧ sendPassiveRead s = sendRequest .read 0 s) ∨ (s.mode = .active ∧ sendPassiveRead s = s) := by
  cases hm : s.mode <;> simp [sendPassiveRead, hm]

/-- What an instruction that answers a next state has done: a start, a start that begins to transmit and the sending of
its request, nothing, or the reception of a frame. -/
theorem exec_next {i : Instr} {s t : State} (h : exec i s = .next t) :
    (s.phase = .idle ∧ ∃ op arg, t = hostStart op arg s)
    ∨ (s.phase = .idle ∧ ∃ op arg, (hostStart op arg s).phase = .tx ∧ t = sendRequest op arg s)
    ∨ t = s
    ∨ (∃ bytes, t = receive bytes s) := by
  cases i with
  | wakeup =>
    simp only [exec, execWakeup] at h
    obtain ⟨hp, ht⟩ := whenIdle_next h
    exact .inr (.inl ⟨hp, .wakeup, 0x0000, rfl, ht⟩)
  | sleep =>
    simp only [exec, execSleep] at h
    obtain ⟨hp, ht⟩ := whenIdle_next h
    exact .inr (.inl ⟨hp, .sleep, 0x0000, rfl, ht⟩)
  | setModeActive =>
    simp only [exec, execSetModeActive] at h
    obtain ⟨hp, ht⟩ := whenIdle_next h
    exact .inr (.inl ⟨hp, .setMode, 0x0001, rfl, ht⟩)
  | setModePassive =>
    simp only [exec, execSetModePassive] at h
    obtain ⟨hp, ht⟩ := whenIdle_next h
    exact .inr (.inl ⟨hp, .setMode, 0x0000, rfl, ht⟩)
  | passiveRead =>
    simp only [exec, execPassiveRead] at h
    obtain ⟨hp, ht⟩ := whenIdle_next h
    rcases sendPassiveRead_cases s with ⟨hm, he⟩ | ⟨_, he⟩
    · exact .inr (.inl ⟨hp, .read, 0x0000, by simp [hostStart, hm, startReadPassive], ht.trans he⟩)
    · exact .inr (.inr (.inl (ht.trans he)))
  | cmdGeneric o d c =>
    simp only [exec, execCmdGeneric] at h
    injection h with h
    exact .inr (.inr (.inl h.symm))
  | readingFrame p =>
    have h : Host.Outcome.next (receive (wireFrame p) s) = .next t := h
    injection h with h
    exact .inr (.inr (.inr ⟨wireFrame p, h.symm⟩))
  | ackFrame p =>
    have h : Host.Outcome.next (receive (wireFrame p) s) = .next t := h
    injection h with h
    exact .inr (.inr (.inr ⟨wireFrame p, h.symm⟩))
  | readActive arg =>
    simp only [exec, execReadActive] at h
    obtain ⟨hp, ht⟩ := whenIdle_next h
    exact .inl ⟨hp, .read, arg, ht⟩
  | readPassive arg =>
    simp only [exec, execReadPassive] at h
    obtain ⟨hp, ht⟩ := whenIdle_next h
    exact .inl ⟨hp, .read, arg, ht⟩
  | wakeupOp arg =>
    simp only [exec, execWakeupOp] at h
    obtain ⟨hp, ht⟩ := whenIdle_next h
    exact .inl ⟨hp, .wakeup, arg, ht⟩
  | sleepOp arg =>
    simp only [exec, execSleepOp] at h
    obtain ⟨hp, ht⟩ := whenIdle_next h
    exact .inl ⟨hp, .sleep, arg, ht⟩
  | setModeOpPassive =>
    simp only [exec, execSetModeOpPassive] at h
    obtain ⟨hp, ht⟩ := whenIdle_next h
    exact .inl ⟨hp, .setMode, 0x0000, ht⟩
  | setModeOpActive =>
    simp only [exec, execSetModeOpActive] at h
    obtain ⟨hp, ht⟩ := whenIdle_next h
    exact .inl ⟨hp, .setMode, 0x0001, ht⟩
  | setModeOpIllegal arg =>
    simp only [exec, execSetModeOpIllegal] at h
    obtain ⟨hp, ht⟩ := whenIdle_next h
    exact .inl ⟨hp, .setMode, arg, ht⟩

/-- A step takes the input offered. -/
theorem step_cons {s : State} {e : Input} {rest : List Input} (h : s.inbox = e :: rest) :
    step s = take e { s with inbox := rest } := by
  unfold step
  rw [h]

/-- What a step that answers a next state has done: nothing, an instruction, or one event. -/
theorem step_next {s t : State} (h : step s = .next t) :
    (s.inbox = [] ∧ t = s)
    ∨ ∃ e rest, s.inbox = e :: rest ∧ (let u : State := { s with inbox := rest };
        (∃ w i, e = .instr w ∧ decode s.mode w = .ok i ∧ exec i u = .next t)
        ∨ (e = .txAccept ∧ t = txAccept u) ∨ (e = .waitDone ∧ t = waitDone u) ∨ (e = .rxByte ∧ t = takeRxByte u)
        ∨ (e = .rxTimeout ∧ t = takeRxTimeout u) ∨ (e = .ioFault ∧ t = ioFault u) ∨ (e = .reset ∧ t = reset u)
        ∨ (∃ b, e = .sensorByte b ∧ t = sensorByte b u)) := by
  unfold step at h
  split at h
  · left; rename_i hi; injection h with h; exact ⟨hi, h.symm⟩
  · right
    rename_i e rest hi
    refine ⟨e, rest, hi, ?_⟩
    cases e with
    | instr w =>
      left
      simp only [take, runWord] at h
      split at h
      · exact ⟨w, _, rfl, ‹_›, h⟩
      · exact absurd h (by simp)
    | _ => simp only [take] at h; injection h with h; simp [h.symm]

end Sys2Proof.Machine
end

