-- ==== Sys2Proof/Laws/PerInstr.lean ====
section
/-! SUPPORT. Per-instruction statements. `WordWidth`: the word the encoder writes for an instruction has the width that
spec/opcode_table.json gives its row. -/

namespace Sys2Proof.Laws

/-- The number of bits of a word. -/
def wordBits (w : Encoded) : Nat :=
  match w with
  | .host _ => 18
  | .frame bytes => 8 * bytes.length

/-- The column "width" of the opcode table. -/
def tableWidth (i : Instr) : Nat :=
  match i with
  | .wakeup => 56
  | .sleep => 56
  | .setModeActive => 56
  | .setModePassive => 56
  | .passiveRead => 56
  | .cmdGeneric _ _ _ => 56
  | .readingFrame _ => 256
  | .ackFrame _ => 64
  | .readActive _ => 18
  | .readPassive _ => 18
  | .wakeupOp _ => 18
  | .sleepOp _ => 18
  | .setModeOpPassive => 18
  | .setModeOpActive => 18
  | .setModeOpIllegal _ => 18

def WordWidth.Statement (i : Instr) : Prop := wordBits (encode i) = tableWidth i

theorem WordWidth.wakeup : WordWidth.Statement .wakeup := rfl
theorem WordWidth.sleep : WordWidth.Statement .sleep := rfl
theorem WordWidth.setModeActive : WordWidth.Statement .setModeActive := rfl
theorem WordWidth.setModePassive : WordWidth.Statement .setModePassive := rfl
theorem WordWidth.passiveRead : WordWidth.Statement .passiveRead := rfl
theorem WordWidth.cmdGeneric (o : Byte) (d c : U16) : WordWidth.Statement (.cmdGeneric o d c) := rfl
theorem WordWidth.readingFrame (p : Vector Byte 30) : WordWidth.Statement (.readingFrame p) := by
  simp [WordWidth.Statement, wordBits, encode, tableWidth]
theorem WordWidth.ackFrame (p : Vector Byte 6) : WordWidth.Statement (.ackFrame p) := by
  simp [WordWidth.Statement, wordBits, encode, tableWidth]
theorem WordWidth.readActive (a : U16) : WordWidth.Statement (.readActive a) := rfl
theorem WordWidth.readPassive (a : U16) : WordWidth.Statement (.readPassive a) := rfl
theorem WordWidth.wakeupOp (a : U16) : WordWidth.Statement (.wakeupOp a) := rfl
theorem WordWidth.sleepOp (a : U16) : WordWidth.Statement (.sleepOp a) := rfl
theorem WordWidth.setModeOpPassive : WordWidth.Statement .setModeOpPassive := rfl
theorem WordWidth.setModeOpActive : WordWidth.Statement .setModeOpActive := rfl
theorem WordWidth.setModeOpIllegal (a : U16) : WordWidth.Statement (.setModeOpIllegal a) := rfl

end Sys2Proof.Laws
end

