-- ==== Sys2Proof/Tests/Slice0.lean ====
section
/-! SUPPORT. Tests. Expected results come from spec/95_test_vectors.md (V numbers), spec/opcode_table.json and the rules
named, never from the model. The second half gives, for each statement of Certificates/Slice0/Obligations.lean that has
hypotheses, a concrete state and operands that meet them. -/

namespace Sys2Proof.Tests

open Sys2Proof Sys2Proof.Machine

/-! ### Ill-formed terms are refused -/

theorem test_smoke_generic_wrong_checksum : Instr.wellFormed (.cmdGeneric 0x00 0x0000 0x008C) = false := by decide
theorem test_smoke_generic_of_a_defined_pair : Instr.wellFormed (.cmdGeneric 0xE4 0x0001 0x0174) = false := by decide
theorem test_smoke_illegal_mode_zero : Instr.wellFormed (.setModeOpIllegal 0) = false := by decide
theorem test_smoke_illegal_mode_one : Instr.wellFormed (.setModeOpIllegal 1) = false := by decide
theorem test_smoke_row_mode : Instr.rowMode (.readPassive 0) .active = false ∧ Instr.rowMode (.readActive 0) .passive = false := by
  decide
theorem test_generic_well_formed : Instr.wellFormed (.cmdGeneric 0xE1 0x0002 0x0172) = true := by decide

/-! ### Decoding: words written out from the table's bits -/

theorem test_decode_wakeup :
    decode .active (.frame [0b01000010, 0b01001101, 0b11100100, 0b00000000, 0b00000001, 0b00000001, 0b01110100])
      = .ok .wakeup := by decide
theorem test_decode_sleep :
    decode .active (.frame [0b01000010, 0b01001101, 0b11100100, 0b00000000, 0b00000000, 0b00000001, 0b01110011])
      = .ok .sleep := by decide
theorem test_decode_set_mode_active :
    decode .active (.frame [0b01000010, 0b01001101, 0b11100001, 0b00000000, 0b00000001, 0b00000001, 0b01110001])
      = .ok .setModeActive := by decide
theorem test_decode_set_mode_passive :
    decode .active (.frame [0b01000010, 0b01001101, 0b11100001, 0b00000000, 0b00000000, 0b00000001, 0b01110000])
      = .ok .setModePassive := by decide
theorem test_decode_passive_read :
    decode .active (.frame [0b01000010, 0b01001101, 0b11100010, 0b00000000, 0b00000000, 0b00000001, 0b01110001])
      = .ok .passiveRead := by decide
/-- V47: the data field is big-endian. -/
theorem test_decode_generic :
    decode .active (.frame [0x42, 0x4D, 0xE1, 0x01, 0x00, 0x01, 0x71]) = .ok (.cmdGeneric 0xE1 0x0100 0x0171) := by decide
/-- Frame Ack S. -/
theorem test_decode_ack :
    decode .active (.frame [0b01000010, 0b01001101, 0x00, 0x04, 0xE4, 0x00, 0x01, 0x77])
      = .ok (.ackFrame #v[0x00, 0x04, 0xE4, 0x00, 0x01, 0x77]) := by decide
theorem test_decode_host_read_active : decode .active (.host 0b000000000000000101#18) = .ok (.readActive 5) := by decide
theorem test_decode_host_read_passive : decode .passive (.host 0b000000000000000101#18) = .ok (.readPassive 5) := by decide
theorem test_decode_host_wakeup : decode .active (.host 0b010000000000000000#18) = .ok (.wakeupOp 0) := by decide
theorem test_decode_host_sleep : decode .active (.host 0b101000000000000000#18) = .ok (.sleepOp 0x8000) := by decide
theorem test_decode_host_set_passive : decode .active (.host 0b110000000000000000#18) = .ok .setModeOpPassive := by decide
theorem test_decode_host_set_active : decode .active (.host 0b110000000000000001#18) = .ok .setModeOpActive := by decide
theorem test_decode_host_illegal : decode .active (.host 0b110000000000000010#18) = .ok (.setModeOpIllegal 2) := by decide
theorem test_decode_no_marker : decode .active (.frame [0x4D, 0x42, 0xE4, 0, 1, 1, 0x74]) = .rejected .noMarker := by decide
theorem test_decode_eight_byte_wakeup_is_no_command :
    decode .active (.frame [0x42, 0x4D, 0xE4, 0x00, 0x00, 0x01, 0x01, 0x74])
      = .ok (.ackFrame #v[0xE4, 0x00, 0x00, 0x01, 0x01, 0x74]) := by decide
theorem test_decode_bad_length : decode .active (.frame [0x42, 0x4D, 0xE4]) = .rejected .badLength := by decide

/-! ### Frames of 95_test_vectors.md -/

def frameA : Vector Byte 30 :=
  #v[0x00, 0x1C, 0x00, 0x05, 0x00, 0x08, 0x00, 0x09, 0x00, 0x05, 0x00, 0x08, 0x00, 0x09, 0x03, 0xFC,
     0x01, 0x2C, 0x00, 0x32, 0x00, 0x04, 0x00, 0x01, 0x00, 0x00, 0x97, 0x00, 0x02, 0xD1]
def frameE : Vector Byte 30 :=
  #v[0x00, 0x1C, 0x00, 0x01, 0x00, 0x02, 0x00, 0x03, 0x00, 0x04, 0x00, 0x05, 0x00, 0x06, 0x00, 0x07,
     0x00, 0x08, 0x00, 0x09, 0x00, 0x0A, 0x00, 0x0B, 0x00, 0x0C, 0x91, 0x00, 0x01, 0x8A]
def ackP : Vector Byte 6 := #v[0x00, 0x04, 0xE1, 0x00, 0x01, 0x74]
def readingA : Vector U16 12 := #v[5, 8, 9, 5, 8, 9, 1020, 300, 50, 4, 1, 0]

theorem test_decode_reading :
    decode .active (.frame (0b01000010 :: 0b01001101 :: frameA.toList)) = .ok (.readingFrame frameA) := by decide

/-! ### Codecs and checksum -/

/-- V64. -/
theorem test_words_big_endian : words (n := 2) #v[0x12, 0x34, 0x56, 0x78] = #v[0x1234, 0x5678] := by decide
/-- V30, V34. -/
theorem test_checksum_frame_a : csumRx frameA = 721 ∧ check (n := 15) frameA = true
    ∧ check (n := 15) (frameA.set 29 0xD0) = false := by decide
/-- V32: the largest sum. -/
theorem test_checksum_largest : csumRx ((Vector.replicate 30 0xFF : Vector Byte 30).set 28 0x1C) = 0x1C73 := by decide
/-- V33: the document's printed constant fails. -/
theorem test_checksum_printed_constant_fails :
    check (n := 15) ((Vector.replicate 30 0x00 : Vector Byte 30).set 29 0x8C) = false := by decide
/-- V74. -/
theorem test_codec_frame_e : codec (bufWords frameE) = #v[1, 2, 3, 4, 5, 6, 7, 8, 9, 10, 11, 12] := by decide
/-- V46. -/
theorem test_encode_largest : encodeCommand 0xFF 0xFFFF = #v[0x42, 0x4D, 0xFF, 0xFF, 0xFF, 0x03, 0x8C] := by decide
/-- V49. -/
theorem test_encode_marker_as_data : encodeCommand 0x42 0x4D42 = #v[0x42, 0x4D, 0x42, 0x4D, 0x42, 0x01, 0x60] := by decide

/-! ### Single steps -/

/-- The state a step leads to. -/
def nextOf (o : Host.Outcome State Fault Refusal) : Option State :=
  match o with
  | .next t => some t
  | .fault _ => none
  | .refused _ => none

/-- A hunt for a reading frame, as `host_start(0, 0)` leaves it after reset, with these bytes queued. -/
def huntA (q : List Byte) : State := { State.reset with phase := .hunt, rx := q }

/-- A hunt for an acknowledgement of `op`. -/
def huntAck (op : HostOp) (m : Mode) : State :=
  { State.reset with phase := .hunt, len := .ack, op := op, reqMode := m, expect := true, txi := 7 }

/-- `n` payload bytes captured. -/
def captureA (n : Fin 31) (l : RespLen) (q : List Byte) : State :=
  { State.reset with phase := .capture, cnt := n, len := l, rx := q, buf := frameA }

/-- `n` bytes of PASSIVE_READ sent. -/
def sending (n : Fin 8) (expect : Bool) : State :=
  { State.reset with
    phase := .tx, txi := n, expect := expect, mode := .passive
    cmdOpcode := 0xE2, txbuf := encodeCommand 0xE2 0 }

def waitingS : State := { sending 7 true with phase := .wait }

def passive : State := { State.reset with mode := .passive }

set_option maxRecDepth 4000 in
/-- V10. -/
theorem test_reading_frame_ok :
    (nextOf (exec (.readingFrame frameA) (huntA []))).map (fun t => (t.phase, t.status, t.rvalid, t.reading))
      = some (.idle, .ok, true, readingA) := by decide
set_option maxRecDepth 4000 in
/-- V12: a repeated 0x42 keeps the match alive. -/
theorem test_hunt_repeated_42 :
    (nextOf (exec (.readingFrame frameA) (huntA [0x42]))).map (fun t => (t.status, t.rx, t.reading[6]))
      = some (.ok, [], 1020) := by decide
set_option maxRecDepth 4000 in
/-- V7: a wrong checksum presents no reading. -/
theorem test_reading_frame_mismatch :
    (nextOf (exec (.readingFrame (frameA.set 29 0x2E)) (huntA []))).map (fun t => (t.status, t.rvalid, t.reading[6]))
      = some (.checksumMismatch, false, 0) := by decide
/-- V25. -/
theorem test_ack_changes_mode :
    (nextOf (exec (.ackFrame ackP) (huntAck .setMode .passive))).map (fun t => (t.status, t.mode, t.rvalid))
      = some (.ok, .passive, false) := by decide
/-- V29: the content is not inspected. -/
theorem test_ack_largest :
    (nextOf (exec (.ackFrame #v[0xFF, 0xFF, 0xFF, 0xFF, 0x04, 0x8B]) (huntAck .sleep .active))).map
      (fun t => (t.status, t.mode, t.cnt)) = some (.ok, .active, 6) := by decide
/-- V16's last byte but one: 0x4D after 0x00 is no marker. -/
theorem test_hunt_lone_4d :
    (nextOf (step { huntA [0x4D] with inbox := [.rxByte] })).map (fun t => (t.phase, t.rx, t.prev42))
      = some (.hunt, [], false) := by decide
/-- V17: a timeout after 29 bytes. -/
theorem test_timeout_after_29 :
    (nextOf (step { captureA 29 .reading [] with inbox := [.rxTimeout] })).map (fun t => (t.phase, t.status, t.cnt, t.rvalid))
      = some (.idle, .sensorError, 29, false) := by decide
/-- V23. -/
theorem test_timeout_at_once :
    (nextOf (step { huntA [] with inbox := [.rxTimeout] })).map (fun t => (t.phase, t.done, t.status))
      = some (.idle, true, .sensorError) := by decide
/-- V53: a fault after three bytes. -/
theorem test_fault_while_sending :
    (nextOf (step { sending 3 true with inbox := [.ioFault] })).map (fun t => (t.phase, t.status, t.txi, t.txs))
      = some (.idle, .sensorError, 3, []) := by decide
/-- V50's first step: WAKEUP leaves LEN alone. -/
theorem test_wakeup_op :
    (nextOf (exec (.wakeupOp 0) State.reset)).map (fun t => (t.phase, t.txi, t.expect, t.len))
      = some (.tx, 0, false, .reading) := by decide
/-- V51's first step. -/
theorem test_sleep_op :
    (nextOf (exec (.sleepOp 0) State.reset)).map (fun t => (t.phase, t.len, t.txbuf))
      = some (.tx, .ack, #v[0x42, 0x4D, 0xE4, 0x00, 0x00, 0x01, 0x73]) := by decide
/-- V52's first step. -/
theorem test_set_mode_active_op :
    (nextOf (exec .setModeOpActive passive)).map (fun t => (t.reqMode, t.mode, t.txbuf))
      = some (.active, .passive, #v[0x42, 0x4D, 0xE1, 0x00, 0x01, 0x01, 0x71]) := by decide
/-- V54's first step. -/
theorem test_set_mode_passive_op :
    (nextOf (exec .setModeOpPassive State.reset)).map (fun t => (t.reqMode, t.mode, t.txbuf))
      = some (.passive, .active, #v[0x42, 0x4D, 0xE1, 0x00, 0x00, 0x01, 0x70]) := by decide
/-- V5, V57. -/
theorem test_set_mode_illegal_op :
    (nextOf (exec (.setModeOpIllegal 0xFFFF) State.reset)).map (fun t => (t.phase, t.done, t.status, t.mode, t.txs))
      = some (.idle, true, .usageError, .active, []) := by decide
/-- V20: an Active READ sends nothing. -/
theorem test_read_active :
    (nextOf (exec (.readActive 0) State.reset)).map (fun t => (t.phase, t.len, t.txs)) = some (.hunt, .reading, []) := by
  decide
/-- V8: a Passive READ sends opcode 0xE2. -/
theorem test_read_passive :
    (nextOf (exec (.readPassive 0) passive)).map (fun t => (t.phase, t.cmdOpcode, t.len)) = some (.tx, 0xE2, .reading) := by
  decide
/-- V50: no wait, no read. -/
theorem test_wakeup_command :
    (nextOf (exec .wakeup State.reset)).map (fun t => (t.phase, t.done, t.txs))
      = some (.idle, true, [0x42, 0x4D, 0xE4, 0x00, 0x01, 0x01, 0x74]) := by decide
/-- V51 up to the wait. -/
theorem test_sleep_command :
    (nextOf (exec .sleep State.reset)).map (fun t => (t.phase, t.txs))
      = some (.wait, [0x42, 0x4D, 0xE4, 0x00, 0x00, 0x01, 0x73]) := by decide
/-- R177 and V8: PASSIVE_READ goes out in Passive mode only. -/
theorem test_passive_read_command :
    (nextOf (exec .passiveRead passive)).map (fun t => (t.phase, t.txs))
      = some (.wait, [0x42, 0x4D, 0xE2, 0x00, 0x00, 0x01, 0x71])
    ∧ nextOf (exec .passiveRead State.reset) = some State.reset := by decide
/-- V45: the encoder's result is the word, and the block sends and loads nothing (R184, R90). -/
theorem test_generic_command :
    encode (.cmdGeneric 0 0 0x008F) = .frame [0x42, 0x4D, 0x00, 0x00, 0x00, 0x00, 0x8F]
    ∧ nextOf (exec (.cmdGeneric 0 0 0x008F) State.reset) = some State.reset := by decide
/-- Rule R81's number, placed where the step fetches. -/
theorem test_fetch_word :
    (nextOf (step (State.reset.withFetchWord 56 0x424DE400000173))).map (fun t => (t.phase, t.cmdOpcode, t.inbox))
      = some (.wait, 0xE4, []) := by decide

/-! ### Witnesses: the hypotheses of the statements can be met, at the ends of their ranges -/

/-- A state that is offered one input. -/
def offered (e : Input) (s : State) : State := { s with inbox := [e] }

theorem witness_DecodeOfEncodeIsTheInstruction :
    (Instr.wellFormed (.cmdGeneric 0xE1 0x0002 0x0172) = true ∧ Instr.rowMode (.cmdGeneric 0xE1 0x0002 0x0172) .active = true)
    ∧ (Instr.wellFormed (.readPassive 0xFFFF) = true ∧ Instr.rowMode (.readPassive 0xFFFF) .passive = true) := by decide
theorem witness_EncodeOfDecodeIsTheWord :
    decode .passive (.host 0#18) = .ok (.readPassive 0)
    ∧ decode .active (.frame [0x42, 0x4D, 0, 0, 0, 0, 0]) = .ok (.cmdGeneric 0 0 0) := by decide
theorem witness_WordIsHighByteThenLowByte :
    (0 < 15 ∧ 14 < 15) ∧ (bufWords frameA)[0] = 28 ∧ (bufWords frameA)[14] = 721 := by decide
theorem witness_ReceivedChecksumIsTheByteSum : 2 ≤ 2 ∧ csumRx (#v[0x01, 0x02] : Vector Byte 2) = 0x8F := by decide
theorem witness_CheckAcceptsExactlyTheMatchingChecksum : 1 ≤ 1 ∧ check (n := 1) #v[0x00, 0x8F] = true := by decide
theorem witness_SingleByteChange :
    check (n := 15) frameA = true ∧ (0 < 30 ∧ (0x01 : Byte) ≠ frameA[0]) ∧ (29 < 30 ∧ (0xD0 : Byte) ≠ frameA[29])
    ∧ (0 < 2 * 15 - 2 ∧ 27 < 2 * 15 - 2) := by decide
theorem witness_ReadingFieldIsTheNextWord : (0 < 12 ∧ 11 < 12) ∧ (bufWords frameA)[7] = 0x03FC := by decide
theorem witness_StepRunsTheDecodedInstruction :
    ((offered (.instr (.host 0x30001#18)) State.reset).inbox = .instr (.host 0x30001#18) :: []
      ∧ decode State.reset.mode (.host 0x30001#18) = .ok .setModeOpActive)
    ∧ decode State.reset.mode (.frame []) = .rejected .badLength
    ∧ decode State.reset.mode (tableWord 24 0x10000) = .ok (.wakeupOp 0) := by decide
theorem witness_StepTakesTheOfferedEvent :
    State.reset.inbox = []
    ∧ (offered .txAccept State.reset).inbox = .txAccept :: [] ∧ (offered .waitDone State.reset).inbox = .waitDone :: []
    ∧ (offered .ioFault State.reset).inbox = .ioFault :: [] ∧ (offered .reset State.reset).inbox = .reset :: []
    ∧ ((offered .rxTimeout State.reset).inbox = .rxTimeout :: [] ∧ (offered .rxTimeout State.reset).rx = [])
    ∧ (offered (.sensorByte 0x42) State.reset).inbox = .sensorByte 0x42 :: []
    ∧ ((offered .rxByte (huntA [0x42])).inbox = .rxByte :: [] ∧ (offered .rxByte (huntA [0x42])).rx = 0x42 :: []
        ∧ acceptsByte (offered .rxByte (huntA [0x42])) = true)
    ∧ (acceptsByte (offered .rxByte (captureA 29 .reading [0xD1])) = true
        ∧ acceptsByte (offered .rxByte (captureA 5 .ack [0xB0])) = true) := by decide
theorem witness_EventWithoutAStepChangesNothing :
    (isBlockEvent .txAccept = true ∧ hasStep (offered .txAccept State.reset).phase .txAccept = false)
    ∧ (isBlockEvent .rxByte = true ∧ hasStep (offered .rxByte waitingS).phase .rxByte = false)
    ∧ (isBlockEvent .rxTimeout = true ∧ (offered .rxTimeout (huntA [0])).rx ≠ [])
    ∧ (offered .rxByte (huntA [])).rx = [] := by decide
theorem witness_EventIsNoHostOperation : ∀ h : HostWord, (Input.rxByte ≠ .instr (.host h)) := fun _ h => nomatch h
theorem witness_idle : State.reset.phase = .idle ∧ State.reset.mode = .active ∧ passive.phase = .idle ∧ passive.mode = .passive := by
  decide
theorem witness_busy :
    (sending 0 true).phase ≠ .idle ∧ waitingS.phase ≠ .idle ∧ (huntA []).phase ≠ .idle ∧ (captureA 0 .ack []).phase ≠ .idle := by
  decide
theorem witness_ResetEvent : (offered .reset (captureA 3 .ack [1])).inbox = .reset :: [] := by decide
theorem witness_IllegalSetModeReportsUsageError :
    State.reset.phase = .idle ∧ ((0x0002 : U16) ≠ 0 ∧ (0x0002 : U16) ≠ 1) ∧ ((0xFFFF : U16) ≠ 0 ∧ (0xFFFF : U16) ≠ 1)
    ∧ hostWordOp 0x30002#18 = .setMode ∧ hostWordArg 0x30002#18 ≠ 0 ∧ hostWordArg 0x30002#18 ≠ 1 := by decide
theorem witness_IllegalArgument :
    ∃ t, step (offered (.instr (.host 0x30002#18)) State.reset) = .next t ∧ t.status = .usageError := ⟨_, rfl, by decide⟩
theorem witness_LegalArgument :
    ∃ t, step (offered (.instr (.host 0x20002#18)) State.reset) = .next t ∧ t.status ≠ .usageError := ⟨_, rfl, by decide⟩
theorem witness_RequestIsSentInOrder :
    (sending 0 true).phase = .tx ∧ (sending 0 true).txi = 0 ∧ (0 ≤ 6 ∧ (0 : Fin 8).val = 0) ∧ (6 ≤ 6 ∧ (6 : Fin 8).val = 6) := by
  decide
theorem witness_LastRequestByteWaitsOrCompletes :
    ((offered .txAccept (sending 6 true)).phase = .tx ∧ (offered .txAccept (sending 6 true)).txi = 6
      ∧ (offered .txAccept (sending 6 true)).inbox = .txAccept :: [] ∧ (offered .txAccept (sending 6 true)).expect = true)
    ∧ (offered .txAccept (sending 6 false)).expect = false := by decide
theorem witness_WaitEndsOnlyOnWaitDone :
    (offered .waitDone waitingS).phase = .wait ∧ isBlockEvent .waitDone = true
    ∧ (Input.rxByte ≠ .waitDone ∧ isBlockEvent .rxByte = true) := by decide
theorem witness_HuntMatchesTheLastTwoBytes :
    (offered .rxByte (huntA [0x4D])).phase = .hunt ∧ (offered .rxByte (huntA [0x4D])).rx = 0x4D :: []
    ∧ { huntA [0x4D] with prev42 := true }.prev42 = true ∧ ¬ ((huntA [0x4D]).prev42 = true ∧ (0x4D : Byte) = 0x4D) := by
  decide
theorem witness_CaptureStoresTheByte :
    ((captureA 0 .reading [7]).cnt.val + 1 < lenBytes (captureA 0 .reading [7]).len)
    ∧ ((captureA 28 .reading [7]).cnt.val + 1 < lenBytes (captureA 28 .reading [7]).len)
    ∧ ((captureA 4 .ack [7]).cnt.val + 1 < lenBytes (captureA 4 .ack [7]).len)
    ∧ (captureA 4 .ack [7]).phase = .capture ∧ (captureA 4 .ack [7]).rx = 7 :: [] := by decide
theorem witness_LastPayloadByteValidates :
    ((captureA 29 .reading [7]).cnt.val + 1 = lenBytes (captureA 29 .reading [7]).len)
    ∧ ((captureA 5 .ack [7]).cnt.val + 1 = lenBytes (captureA 5 .ack [7]).len) := by decide
theorem witness_timeouts_and_faults :
    ((offered .rxTimeout (captureA 0 .reading [])).phase = .capture ∧ (offered .rxTimeout (captureA 0 .reading [])).rx = [])
    ∧ (offered .ioFault (huntA [])).phase = .hunt ∧ (offered .ioFault (captureA 5 .ack [])).phase = .capture
    ∧ ((offered .rxTimeout (huntA [])).phase = .hunt ∧ (offered .rxTimeout (huntA [])).rx = [])
    ∧ (offered .ioFault (sending 3 true)).phase = .tx := by decide
theorem witness_FrameWaitsWhileNothingIsReceived :
    State.reset.phase = .idle ∧ (sending 0 true).phase = .tx ∧ waitingS.phase = .wait := by decide
theorem witness_FramesAnswerTheHunt :
    ((huntA []).phase = .hunt ∧ (huntA []).rx = [] ∧ (huntA []).len = .reading)
    ∧ ((huntAck .sleep .active).phase = .hunt ∧ (huntAck .sleep .active).rx = [] ∧ (huntAck .sleep .active).len = .ack)
    ∧ ((huntAck .sleep .active).op ≠ .read ∧ (huntAck .read .active).op = .read)
    ∧ (check (n := 3) ackP = true ∧ check (n := 3) (ackP.set 5 0x75) = false) := by decide
theorem witness_FrameReceptionFrame : (∃ p, Instr.readingFrame frameA = .readingFrame p) ∧ (lenBytes (huntAck .sleep .active).len ≤ 6) :=
  ⟨⟨frameA, rfl⟩, by decide⟩
theorem witness_FrameIsTheRunOfItsBytes : encode (.ackFrame ackP) = .frame (0x42 :: 0x4D :: ackP.toList) := by decide
theorem witness_SynchronizerIsTheFunctionOfItsInput : (huntA []).phase = .hunt ∧ (huntA []).prev42 = false := by decide

theorem witness_GenericCommandIsEncodedOnly : Instr.wellFormed (.cmdGeneric 0xFF 0xFFFF 0x038C) = true := by decide
/-- A step that completes a SET_MODE with OK: the bytes before the last are `00 1C 00 05 00`. -/
theorem witness_ModeChangesOnlyAtAcknowledgedSetMode :
    ∃ t, step (offered .rxByte { captureA 5 .ack [0xB0] with op := .setMode, reqMode := .passive }) = .next t
      ∧ t.mode ≠ .active ∧ t.status = .ok := ⟨_, rfl, by decide⟩
theorem witness_ErrorChangesOnlyTheResult :
    (Status.sensorError ≠ .ok ∧ Input.ioFault ≠ .reset)
    ∧ ∃ t, step (offered .ioFault (huntA [])) = .next t ∧ t.done = true ∧ t.status ≠ .ok :=
  ⟨by decide, _, rfl, by decide⟩
theorem witness_ErrorEndsAnOperation :
    (∃ t, step (offered .rxTimeout (captureA 29 .reading [])) = .next t ∧ t.phase = .idle ∧ t.status ≠ .ok)
    ∧ (∃ t, step (offered .rxByte (captureA 5 .ack [0xB1])) = .next t ∧ t.phase = .idle ∧ t.status ≠ .ok)
    ∧ (∃ t, step (offered (.instr (.frame (wireFrame (ackP.set 5 0x75)))) (huntAck .sleep .active)) = .next t
        ∧ t.phase = .idle ∧ t.status ≠ .ok) := ⟨⟨_, rfl, by decide⟩, ⟨_, rfl, by decide⟩, _, rfl, by decide⟩
theorem witness_ErrorOfAnArgument :
    State.reset.phase = .idle ∧ State.reset.status ≠ .usageError
    ∧ ∃ t, step (offered (.instr (.host 0x3FFFF#18)) State.reset) = .next t ∧ t.status = .usageError :=
  ⟨rfl, by decide, _, rfl, by decide⟩
theorem witness_ReadCommits : (captureA 29 .reading []).op = .read ∧ (0 < 12 ∧ 11 < 12) := by decide
theorem witness_ReadingIsCommittedOnlyByAnOkRead :
    ∃ t, step (offered .rxByte (captureA 29 .reading [0xD1])) = .next t
      ∧ (t.reading ≠ (offered .rxByte (captureA 29 .reading [0xD1])).reading) ∧ t.rvalid = true := ⟨_, rfl, by decide⟩
theorem witness_MismatchOnlyAfterAFullPayload :
    ∃ t, step (offered .rxByte (captureA 5 .ack [0xB1])) = .next t ∧ t.status = .checksumMismatch := ⟨_, rfl, by decide⟩
theorem witness_Outputs : (sending 6 true).txi.val < 7 ∧ State.reset.rvalid = false ∧ { State.reset with rvalid := true }.rvalid = true := by
  decide
theorem witness_ResultsPersistWhileIdle :
    State.reset.phase = .idle ∧ (∃ t, step (offered (.sensorByte 1) State.reset) = .next t) ∧ Input.sensorByte 1 ≠ .reset
    ∧ ∀ w, Input.sensorByte 1 ≠ .instr w := ⟨rfl, ⟨_, rfl⟩, by decide, fun _ h => nomatch h⟩
theorem witness_PhaseChangesAlongTheTable :
    isBlockEvent .waitDone = true ∧ ∃ t, step (offered .waitDone waitingS) = .next t ∧ t.phase ≠ waitingS.phase :=
  ⟨rfl, _, rfl, by decide⟩
theorem witness_PhaseChangesOfAFrame :
    (∃ t, step (offered (.instr (encode .sleep)) State.reset) = .next t ∧ t.phase ≠ State.reset.phase)
    ∧ (∃ t, step (offered (.instr (encode .passiveRead)) passive) = .next t ∧ t.phase ≠ passive.phase ∧ t.op = .read)
    ∧ ∃ t, step (offered (.instr (.frame (wireFrame ackP))) (huntAck .sleep .active)) = .next t ∧ t.phase ≠ .hunt :=
  ⟨⟨_, rfl, by decide⟩, ⟨_, rfl, by decide⟩, _, rfl, by decide⟩
theorem witness_BytesAreConsumedOnlyWhileReceiving :
    (∃ t, step State.reset = .next t ∧ State.reset.inbox = [])
    ∧ (∃ t, step (offered .rxByte (huntA [1, 2])) = .next t ∧ t.rx = [2] ∧ acceptsByte (offered .rxByte (huntA [1, 2])) = true)
    ∧ (∃ t, step (offered .rxByte waitingS) = .next t ∧ acceptsByte (offered .rxByte waitingS) = false)
    ∧ (∃ t, step (offered (.sensorByte 7) waitingS) = .next t ∧ t.rx = [7])
    ∧ (∃ t, step (offered (.instr (.frame (wireFrame frameA))) State.reset) = .next t ∧ t.rx = wireFrame frameA)
    ∧ (∃ t, step (offered (.instr (.frame (wireFrame ackP))) (huntAck .sleep .active)) = .next t ∧ t.rx = [])
    ∧ ∃ t, step (offered .waitDone waitingS) = .next t ∧ t.rx = [] :=
  ⟨⟨_, rfl, rfl⟩, ⟨_, rfl, by decide⟩, ⟨_, rfl, by decide⟩, ⟨_, rfl, by decide⟩, ⟨_, rfl, by decide⟩, ⟨_, rfl, by decide⟩, _, rfl,
    by decide⟩
theorem witness_BytesOfOtherInputs :
    (∀ b, Input.waitDone ≠ .sensorByte b) ∧ Input.waitDone ≠ .rxByte ∧ (∀ f, Input.waitDone ≠ .instr (.frame f)) :=
  ⟨fun _ => Input.noConfusion, by decide, fun _ => Input.noConfusion⟩
theorem witness_TransmittedBytesAreOnlyAppended :
    ∃ t, step (offered .txAccept (sending 2 true)) = .next t ∧ t.txs = [0xE2] := ⟨_, rfl, by decide⟩
theorem witness_RegisterInv : RegisterInv (captureA 29 .reading [0xD1]) :=
  ⟨by decide, by decide, by decide, by decide, by decide⟩
theorem witness_OperationRecord : OperationRecord (sending 0 true) ∧ ∃ t, step (offered .txAccept (sending 0 true)) = .next t :=
  ⟨⟨by decide, by decide, by decide, by decide, fun _ => ⟨[], by decide⟩, by decide, by decide, by decide, by decide⟩, _, rfl⟩

end Sys2Proof.Tests
end

namespace Sys2Proof.Machine

/-! ### Host words: `host_start` in the step that takes it (30_encoding.md rules R92, R93) -/

/-- The step that takes a host word is `host_start` with the word's two operands, whatever `MODE` is. -/
theorem step_hostWord {s : State} {h : HostWord} {rest : List Input} (hin : s.inbox = .instr (.host h) :: rest) :
    step s = whenIdle .hostStartWhileBusy (hostStart (hostWordOp h) (hostWordArg h)) { s with inbox := rest } :=
  (step_cons hin).trans (exec_decodeHost s.mode h _)

/-- `host_start` reports UsageError on exactly one path, the rejected argument of SET_MODE. -/
theorem hostStart_status_usageError_iff (op : HostOp) (arg : U16) (s : State) :
    (hostStart op arg s).status = .usageError ↔ op = .setMode ∧ arg ≠ 0 ∧ arg ≠ 1 := by
  rcases hostStart_cases op arg s with
    ⟨rfl, _, hs⟩ | ⟨rfl, _, hs⟩ | ⟨rfl, hs⟩ | ⟨rfl, hs⟩ | ⟨rfl, harg, hs⟩ | ⟨rfl, harg, hs⟩
  · simp [hs, startReadActive]
  · simp [hs, startReadPassive]
  · simp [hs, startWakeup]
  · simp [hs, startSleep]
  · simpa [hs, startSetMode] using harg.resolve_left
  · simpa [hs] using not_or.mp harg

/-- A rejected SET_MODE is the latch of the operation and the error, with nothing between them. -/
theorem hostStart_setMode_illegal {arg : U16} (h0 : arg ≠ 0) (h1 : arg ≠ 1) (s : State) :
    hostStart .setMode arg s = usageError (latch .setMode s) :=
  if_neg (not_or.mpr ⟨h0, h1⟩)

/-- Only SET_MODE reads its argument. -/
theorem hostStart_arg_ignored {op : HostOp} (hop : op ≠ .setMode) (a b : U16) : hostStart op a = hostStart op b := by
  cases op with
  | read => rfl
  | wakeup => rfl
  | sleep => rfl
  | setMode => exact absurd rfl hop

/-- Settles O28: a host word taken in `IDLE` is `host_start`, which reports UsageError for an illegal argument of
SET_MODE alone, and which looks at the argument for SET_MODE alone. -/
theorem illegalArgumentIsTheOneIllegalHostEncoding : Obligations.IllegalArgumentIsTheOneIllegalHostEncoding := by
  unfold Obligations.IllegalArgumentIsTheOneIllegalHostEncoding
  refine ⟨fun s t h rest _ hin hstep => ?_, fun s a b => ?_⟩
  · obtain ⟨_, rfl⟩ := whenIdle_next ((step_hostWord hin).symm.trans hstep)
    have hiff := hostStart_status_usageError_iff (hostWordOp h) (hostWordArg h) { s with inbox := rest }
    refine ⟨hiff, fun hst => ?_⟩
    obtain ⟨hop, h0, h1⟩ := hiff.mp hst
    simp [hop, hostStart_setMode_illegal h0 h1]
  · have same {op : HostOp} (hop : op ≠ .setMode) :
        whenIdle .hostStartWhileBusy (hostStart op a) s = whenIdle .hostStartWhileBusy (hostStart op b) s := by
      rw [hostStart_arg_ignored hop a b]
    exact ⟨same (by decide), same (by decide), same (by decide), same (by decide)⟩

end Sys2Proof.Machine

namespace Sys2Proof.Machine

/-! ### The synchronizer's steps in `CAPTURE`, and its ends with SensorError (40_frame_sync.md rules R114, R117, R118) -/

/-- No response is longer than BUF. -/
theorem lenBytes_le (l : RespLen) : lenBytes l ≤ 30 := by
  cases l <;> decide

/-- The offer of a queued byte that the block accepts is `rx_byte` with the head of RX. -/
theorem takeRxByte_cons {s : State} {b : Byte} {bs : List Byte} (hrx : s.rx = b :: bs) (ha : acceptsByte s = true) :
    takeRxByte s = rxByte b { s with rx := bs } := by
  simp [takeRxByte, hrx, ha]

/-- Rule R114: while more than one byte is missing, `CAPTURE` stores the byte and goes on. -/
theorem takeRxByte_capture {s : State} {b : Byte} {bs : List Byte} (hp : s.phase = .capture) (hrx : s.rx = b :: bs)
    (hlt : s.cnt.val + 1 < lenBytes s.len) : takeRxByte s = storeByte b { s with rx := bs } := by
  have ha : acceptsByte s = true := by simp [acceptsByte, hp, hlt.le]
  rw [takeRxByte_cons hrx ha]
  simp [rxByte, hp, captureStep, hlt]

/-- A store below the end of BUF counts one byte more, without wrapping. -/
theorem storeByte_cnt_val {s : State} (b : Byte) (h : s.cnt.val < 30) : (storeByte b s).cnt.val = s.cnt.val + 1 :=
  Fin.val_add_one_of_lt' (by omega)

/-- A store below the end of BUF writes the cell at `CNT` and no other. -/
theorem memRead8_storeByte {s : State} (b : Byte) (h : s.cnt.val < 30) (a : Nat) :
    memRead8 (storeByte b s) a = if a = s.cnt.val then some b else memRead8 s a := by
  have hbuf : memRead8 (storeByte b s) a = memRead8 (memWrite8 s.cnt.val b s) a := rfl
  simp [hbuf, memRead8_memWrite8, h]

/-- Ending with an error commits neither `REQ_MODE` nor a reading: only `PHASE`, `DONE` and `STATUS` are written. -/
theorem complete_error {st : Status} (h : st ≠ .ok) (s : State) :
    complete st s = { s with phase := .idle, done := true, status := st } := by
  simp [complete, h]

/-- A timeout offered to a receiving block, with nothing queued, is SensorError. -/
theorem takeRxTimeout_receiving {s : State} (hp : s.phase = .hunt ∨ s.phase = .capture) (hrx : s.rx = []) :
    takeRxTimeout s = complete .sensorError s := by
  rcases takeRxTimeout_cases s with ⟨_, _, ht⟩ | ⟨hrx' | ⟨hh, hc⟩, _⟩
  · exact ht
  · exact absurd hrx hrx'
  · exact absurd hp (not_or.mpr ⟨hh, hc⟩)

/-- An I/O fault while the block sends or receives is SensorError. -/
theorem ioFault_transfer {s : State} (hp : s.phase = .tx ∨ s.phase = .hunt ∨ s.phase = .capture) :
    ioFault s = complete .sensorError s := by
  rcases ioFault_cases s with ⟨_, ht⟩ | ⟨hi | hw, _⟩
  · exact ht
  · simp [hi] at hp
  · simp [hw] at hp

/-- Settles O37: the step is one `storeByte`, and `CNT` lies inside BUF because more than one byte is missing. -/
theorem captureStoresTheByte : Obligations.CaptureStoresTheByte := by
  unfold Obligations.CaptureStoresTheByte
  intro s b bs rest hp hin hrx hlt
  have hcnt : s.cnt.val < 30 := by
    have := lenBytes_le s.len
    omega
  have hstep : step s = .next (storeByte b { s with rx := bs, inbox := rest }) := calc
    step s = .next (takeRxByte { s with inbox := rest }) := step_cons hin
    _ = .next (storeByte b { s with rx := bs, inbox := rest }) :=
      congrArg Host.Outcome.next (takeRxByte_capture hp hrx hlt)
  exact ⟨_, hstep, rfl, storeByte_cnt_val b hcnt, memRead8_storeByte b hcnt⟩

/-- Settles O39: the timeout ends the operation with an error, which leaves BUF and `CNT` as captured. -/
theorem timeoutWhileCapturingIsSensorError : Obligations.TimeoutWhileCapturingIsSensorError := by
  unfold Obligations.TimeoutWhileCapturingIsSensorError
  intro s rest hp hin hrx
  calc step s = .next (takeRxTimeout { s with inbox := rest }) := step_cons hin
    _ = .next (complete .sensorError { s with inbox := rest }) :=
      congrArg Host.Outcome.next (takeRxTimeout_receiving (.inr hp) hrx)
    _ = .next { s with phase := .idle, done := true, status := .sensorError, inbox := rest } :=
      congrArg Host.Outcome.next (complete_error (by decide) _)

/-- Settles O40: the fault ends the operation with an error, in `HUNT` as in `CAPTURE`. -/
theorem faultWhileReceivingIsSensorError : Obligations.FaultWhileReceivingIsSensorError := by
  unfold Obligations.FaultWhileReceivingIsSensorError
  intro s rest hp hin
  calc step s = .next (ioFault { s with inbox := rest }) := step_cons hin
    _ = .next (complete .sensorError { s with inbox := rest }) := congrArg Host.Outcome.next (ioFault_transfer (.inr hp))
    _ = .next { s with phase := .idle, done := true, status := .sensorError, inbox := rest } :=
      congrArg Host.Outcome.next (complete_error (by decide) _)

end Sys2Proof.Machine

namespace Sys2Proof.Machine

/-! ### The word decoder (41_word_decoder.md rules R130, R131) -/

/-- Both operands are below 256, so the `|` never overlaps bits and equals addition (rule R131). -/
theorem toNat_word16 (high low : Byte) : (word16 high low).toNat = 256 * high.toNat + low.toNat := by
  have hhigh : (high.setWidth 16 <<< 8).toNat = high.toNat <<< 8 := by
    rw [BitVec.toNat_shiftLeft, BitVec.toNat_setWidth_of_le (by decide), Nat.shiftLeft_eq]
    omega
  calc (word16 high low).toNat = high.toNat <<< 8 ||| low.toNat := by
        rw [word16, BitVec.toNat_or, hhigh, BitVec.toNat_setWidth_of_le (by decide)]
    _ = high.toNat <<< 8 + low.toNat := (Nat.shiftLeft_add_eq_or_of_lt low.isLt _).symm
    _ = 256 * high.toNat + low.toNat := by rw [Nat.shiftLeft_eq, Nat.mul_comm]

/-- Word `i` comes from the bytes `2i` and `2i + 1` of the payload. -/
theorem getElem_words {n : Nat} (p : Vector Byte (2 * n)) (i : Nat) (h : i < n) :
    (words p)[i] = word16 p[2 * i] p[2 * i + 1] :=
  Vector.getElem_ofFn h

/-- The number of word `i`: its first byte weighs 256. -/
theorem toNat_getElem_words {n : Nat} (p : Vector Byte (2 * n)) (i : Nat) (h : i < n) :
    (words p)[i].toNat = 256 * p[2 * i].toNat + p[2 * i + 1].toNat := by
  rw [getElem_words, toNat_word16]

/-- Settles O6: word `i` is `word16` of its two bytes, and the number of a `word16` is 256 times its high byte plus its
low byte; the words of BUF are the case of fifteen words. -/
theorem wordIsHighByteThenLowByte : Obligations.WordIsHighByteThenLowByte := by
  unfold Obligations.WordIsHighByteThenLowByte
  refine ⟨fun n p i h => ⟨?_, toNat_getElem_words p i h⟩, fun buf i h => ?_, ?_⟩
  · exact getElem_words p i h
  · exact toNat_getElem_words (n := 15) buf i h
  · decide

end Sys2Proof.Machine

namespace Sys2Proof.Machine

/-! ### The checksum, one sum for both directions (42_checksum.md rules R141 to R145) -/

/-- Rule R143: the 16-bit additions keep the sum of the bytes' numbers modulo 65536. -/
theorem toNat_byteSum (bs : List Byte) : (byteSum bs).toNat = (bs.map BitVec.toNat).sum % 65536 := by
  induction bs with
  | nil => rfl
  | cons b bs ih =>
    have hb : (b.setWidth 16).toNat = b.toNat := BitVec.toNat_setWidth_of_le (by decide)
    rw [byteSum, BitVec.toNat_add, hb, ih, List.map_cons, List.sum_cons, Nat.add_mod_mod]

/-- `MARKSUM` is 0x8F = 143 (rule R8). -/
theorem toNat_markSum : markSum.toNat = 0x8F := by decide

/-- Rule R141 as a number: the marker sum and the payload bytes before the checksum word. -/
theorem toNat_csumRx {n : Nat} (p : Vector Byte n) :
    (csumRx p).toNat = (0x8F + ((p.toList.take (n - 2)).map BitVec.toNat).sum) % 65536 := by
  rw [csumRx, BitVec.toNat_add, toNat_markSum, toNat_byteSum, Nat.add_mod_mod]

/-- Rule R145 as a number. -/
theorem toNat_csumTx (b0 b1 b2 b3 b4 : Byte) :
    (csumTx b0 b1 b2 b3 b4).toNat = (b0.toNat + b1.toNat + b2.toNat + b3.toNat + b4.toNat) % 65536 := by
  simp [csumTx, toNat_byteSum, Nat.add_assoc]

/-- The last word of a payload with at least one word is made of its last two bytes. -/
theorem getLast?_words {n : Nat} (p : Vector Byte (2 * n)) (h : 1 ≤ n) :
    (words p).toList.getLast? = some (word16 p[2 * n - 2] p[2 * n - 1]) := by
  obtain ⟨k, rfl⟩ := Nat.exists_eq_add_of_le' h
  have hlast : (words p).toList.getLast? = some (words p)[k] := by
    simp [List.getLast?_eq_getElem?]
  exact hlast.trans (congrArg some (getElem_words p k k.lt_succ_self))

/-- Rule R142: `CHECK` compares the last word with `CSUM_RX`. -/
theorem check_iff {n : Nat} (p : Vector Byte (2 * n)) (h : 1 ≤ n) :
    check p = true ↔ word16 p[2 * n - 2] p[2 * n - 1] = csumRx p := by
  rw [check, getLast?_words p h, beq_iff_eq, Option.some_inj]

/-- Settles O7: the number of the byte sum, with the marker sum in front; the bound on the length is not needed. -/
theorem receivedChecksumIsTheByteSum : Obligations.ReceivedChecksumIsTheByteSum := by
  unfold Obligations.ReceivedChecksumIsTheByteSum
  exact ⟨fun n p _ => toNat_csumRx p, by decide, by decide⟩

/-- Settles O8: the last word is `word16` of the last two bytes, and `CHECK` compares it with `CSUM_RX`. -/
theorem checkAcceptsExactlyTheMatchingChecksum : Obligations.CheckAcceptsExactlyTheMatchingChecksum := by
  unfold Obligations.CheckAcceptsExactlyTheMatchingChecksum
  exact ⟨fun n p h => check_iff p h, by decide⟩

/-- Settles O9: the number of the byte sum of five bytes, whose first two are the marker in the second clause. -/
theorem commandChecksumIsTheByteSum : Obligations.CommandChecksumIsTheByteSum := by
  unfold Obligations.CommandChecksumIsTheByteSum
  exact ⟨toNat_csumTx, fun x y z => toNat_csumTx 0x42 0x4D x y z, by decide⟩

end Sys2Proof.Machine

namespace Sys2Proof.Machine

/-! ### The reading codec and its commit (43_reading_codec.md rules R161, R163) -/

/-- Rule R161: field `k` is word `k` + 1, unchanged. -/
theorem getElem_codec (w : Vector U16 15) (k : Nat) (h : k < 12) : (codec w)[k] = w[k + 1] :=
  Vector.getElem_ofFn h

/-- Settles O14: a field is the next word, so its number is that of the two bytes the word is made of. -/
theorem readingFieldIsTheNextWord : Obligations.ReadingFieldIsTheNextWord := by
  unfold Obligations.ReadingFieldIsTheNextWord
  refine ⟨getElem_codec, fun buf k h => ?_, fun w hw => ?_⟩
  · rw [getElem_codec]
    exact toNat_getElem_words (n := 15) buf (k + 1) (by omega)
  · rw [getElem_codec, hw]
    rfl

/-- From `s` to `t` the reading is not written and `RVALID` is not set. -/
def KeepsReading (s t : State) : Prop := t.reading = s.reading ∧ (t.rvalid = true → s.rvalid = true)

/-- What the registers hold where a READ has just completed with OK. -/
def OkReadResult (t : State) : Prop :=
  t.op = .read ∧ t.phase = .idle ∧ t.done = true ∧ t.status = .ok ∧ t.rvalid = true ∧ t.reading = codec (bufWords t.buf)

/-- From `s` to `t` the reading is left alone, or it is committed by a READ that was in progress in `s`. -/
def KeepsOrCommits (s t : State) : Prop :=
  KeepsReading s t ∨ (s.op = .read ∧ s.phase ≠ .idle ∧ OkReadResult t)

theorem KeepsReading.refl (s : State) : KeepsReading s s := ⟨rfl, id⟩

theorem KeepsReading.trans {s t u : State} (h : KeepsReading s t) (h' : KeepsReading t u) : KeepsReading s u :=
  ⟨h'.1.trans h.1, h.2 ∘ h'.2⟩

/-- A state with the reading and the `RVALID` of `s` is no commit. -/
theorem KeepsOrCommits.of_eq {s t : State} (hr : t.reading = s.reading) (hv : t.rvalid = s.rvalid) :
    KeepsOrCommits s t :=
  .inl ⟨hr, fun h => hv ▸ h⟩

/-- What comes before a commit in the same operation may keep the reading. -/
theorem KeepsOrCommits.of_keepsReading {s t u : State} (h : KeepsOrCommits t u) (hk : KeepsReading s t) (hop : t.op = s.op)
    (hp : s.phase ≠ .idle) : KeepsOrCommits s u := by
  rcases h with hk' | ⟨hread, _, hdone⟩
  · exact .inl (hk.trans hk')
  · exact .inr ⟨hop ▸ hread, hp, hdone⟩

/-! #### The one place of the commit, `complete` -/

/-- A completion with an error, or of another operation than READ, writes neither the reading nor `RVALID`. -/
theorem complete_no_commit {st : Status} {s : State} (h : st ≠ .ok ∨ s.op ≠ .read) :
    (complete st s).reading = s.reading ∧ (complete st s).rvalid = s.rvalid := by
  have hnot : ¬ (st = .ok ∧ s.op = .read) := not_and_or.mpr h
  exact ⟨if_neg hnot, if_neg hnot⟩

/-- A READ that completes with OK commits BUF's reading. -/
theorem complete_ok_read {s : State} (h : s.op = .read) : OkReadResult (complete .ok s) :=
  ⟨h, rfl, rfl, rfl, if_pos ⟨rfl, h⟩, if_pos ⟨rfl, h⟩⟩

theorem complete_keepsOrCommits (st : Status) {s : State} (hp : s.phase ≠ .idle) : KeepsOrCommits s (complete st s) := by
  by_cases h : st = .ok ∧ s.op = .read
  · obtain ⟨rfl, hop⟩ := h
    exact .inr ⟨hop, hp, complete_ok_read hop⟩
  · obtain ⟨hr, hv⟩ := complete_no_commit (not_and_or.mp h)
    exact .of_eq hr hv

/-! #### The events -/

theorem txAccept_keepsOrCommits (s : State) : KeepsOrCommits s (txAccept s) := by
  rcases txAccept_cases s with ⟨hp, _, ⟨_, ht⟩ | ⟨_, _, ht⟩ | ⟨_, _, ht⟩⟩ | ⟨_, ht⟩ <;> rw [ht]
  · exact .of_eq rfl rfl
  · exact .of_eq rfl rfl
  · exact complete_keepsOrCommits .ok (s := sendByte _ s) (by simp [hp])
  · exact .of_eq rfl rfl

theorem waitDone_keepsOrCommits (s : State) : KeepsOrCommits s (waitDone s) := by
  rcases waitDone_cases s with ⟨_, ht⟩ | ⟨_, ht⟩ <;> rw [ht] <;> exact .of_eq rfl rfl

theorem rxByte_keepsOrCommits (b : Byte) {s : State} (ha : acceptsByte s = true) : KeepsOrCommits s (rxByte b s) := by
  rcases rxByte_cases b s ha with ⟨_, _, _, ht⟩ | ⟨_, _, ht⟩ | ⟨_, _, ht⟩ | ⟨hp, _, ht⟩ <;> rw [ht]
  · exact .of_eq rfl rfl
  · exact .of_eq rfl rfl
  · exact .of_eq rfl rfl
  · exact complete_keepsOrCommits _ (s := storeByte b s) (by simp [hp])

theorem takeRxByte_keepsOrCommits (s : State) : KeepsOrCommits s (takeRxByte s) := by
  rcases takeRxByte_cases s with ⟨b, bs, _, ha, ht⟩ | ⟨_, ht⟩ <;> rw [ht]
  · exact rxByte_keepsOrCommits b (s := { s with rx := bs }) ha
  · exact .of_eq rfl rfl

theorem takeRxTimeout_keepsOrCommits (s : State) : KeepsOrCommits s (takeRxTimeout s) := by
  rcases takeRxTimeout_cases s with ⟨_, hp, ht⟩ | ⟨_, ht⟩ <;> rw [ht]
  · exact complete_keepsOrCommits .sensorError (by rcases hp with hp | hp <;> simp [hp])
  · exact .of_eq rfl rfl

theorem ioFault_keepsOrCommits (s : State) : KeepsOrCommits s (ioFault s) := by
  rcases ioFault_cases s with ⟨hp, ht⟩ | ⟨_, ht⟩ <;> rw [ht]
  · exact complete_keepsOrCommits .sensorError (by rcases hp with hp | hp | hp <;> simp [hp])
  · exact .of_eq rfl rfl

/-! #### A start, a whole request, a whole frame -/

/-- `host_start` clears `RVALID` and leaves the reading. -/
theorem hostStart_reading_rvalid (op : HostOp) (arg : U16) (s : State) :
    (hostStart op arg s).reading = s.reading ∧ (hostStart op arg s).rvalid = false := by
  rcases hostStart_cases op arg s with
    ⟨_, _, hs⟩ | ⟨_, _, hs⟩ | ⟨_, hs⟩ | ⟨_, hs⟩ | ⟨_, _, hs⟩ | ⟨_, _, hs⟩ <;> rw [hs] <;> exact ⟨rfl, rfl⟩

theorem hostStart_keepsReading (op : HostOp) (arg : U16) (s : State) : KeepsReading s (hostStart op arg s) := by
  obtain ⟨hr, hv⟩ := hostStart_reading_rvalid op arg s
  exact ⟨hr, by simp [hv]⟩

/-- The request a READ sends expects a response. -/
theorem hostStart_read_expect {op : HostOp} {arg : U16} {s : State} (hp : (hostStart op arg s).phase = .tx)
    (hop : (hostStart op arg s).op = .read) : (hostStart op arg s).expect = true := by
  rcases hostStart_cases op arg s with
    ⟨_, _, hs⟩ | ⟨_, _, hs⟩ | ⟨_, hs⟩ | ⟨_, hs⟩ | ⟨_, _, hs⟩ | ⟨_, _, hs⟩ <;> rw [hs] at hp hop ⊢
  · simp [startReadActive] at hp
  · rfl
  · simp [startWakeup] at hop
  · rfl
  · rfl
  · simp at hp

theorem txAccept_op (s : State) : (txAccept s).op = s.op := by
  rcases txAccept_cases s with ⟨_, _, ⟨_, ht⟩ | ⟨_, _, ht⟩ | ⟨_, _, ht⟩⟩ | ⟨_, ht⟩ <;> rw [ht] <;> rfl

theorem txAccept_expect (s : State) : (txAccept s).expect = s.expect := by
  rcases txAccept_cases s with ⟨_, _, ⟨_, ht⟩ | ⟨_, _, ht⟩ | ⟨_, _, ht⟩⟩ | ⟨_, ht⟩ <;> rw [ht] <;> rfl

/-- A READ that waits for its response is not completed by a `tx_accept`. -/
theorem txAccept_keepsReading {s : State} (h : s.op = .read → s.expect = true) : KeepsReading s (txAccept s) := by
  rcases txAccept_cases s with ⟨_, _, ⟨_, ht⟩ | ⟨_, _, ht⟩ | ⟨_, hexp, ht⟩⟩ | ⟨_, ht⟩ <;> rw [ht]
  · exact .refl s
  · exact .refl s
  · have hop : s.op ≠ .read := fun hread => by simpa [hexp] using h hread
    obtain ⟨hr, hv⟩ := complete_no_commit (st := .ok) (s := sendByte s.txbuf[s.txi.val] s) (.inr hop)
    exact ⟨hr, fun hset => hv ▸ hset⟩
  · exact .refl s

theorem acceptBytes_keepsReading (n : Nat) {s : State} (h : s.op = .read → s.expect = true) :
    KeepsReading s (acceptBytes n s) := by
  induction n generalizing s with
  | zero => exact .refl s
  | succ n ih => exact (txAccept_keepsReading h).trans (ih (by rwa [txAccept_op, txAccept_expect]))

theorem sendRequest_keepsReading {op : HostOp} {arg : U16} {s : State} (hp : (hostStart op arg s).phase = .tx) :
    KeepsReading s (sendRequest op arg s) :=
  (hostStart_keepsReading op arg s).trans (acceptBytes_keepsReading Config.cmdLen (hostStart_read_expect hp))

theorem rxByte_op (b : Byte) {s : State} (ha : acceptsByte s = true) : (rxByte b s).op = s.op := by
  rcases rxByte_cases b s ha with ⟨_, _, _, ht⟩ | ⟨_, _, ht⟩ | ⟨_, _, ht⟩ | ⟨_, _, ht⟩ <;> rw [ht] <;> rfl

theorem OkReadResult.takes_no_byte {t : State} (h : OkReadResult t) : acceptsByte t = false := by
  obtain ⟨_, hidle, _⟩ := h
  simp [acceptsByte, hidle]

/-- A queue commits at most once: after the commit the block is in `IDLE` and takes no byte. -/
theorem handOver_keepsOrCommits (bs : List Byte) (s : State) : KeepsOrCommits s (handOver bs s) := by
  induction bs generalizing s with
  | nil => exact .of_eq rfl rfl
  | cons b bs ih =>
    cases ha : acceptsByte s with
    | false =>
      rw [handOver_of_not_accepts ha]
      exact .of_eq rfl rfl
    | true =>
      have hp : s.phase ≠ .idle := by rcases acceptsByte_phase ha with hp | hp <;> simp [hp]
      have hcons : handOver (b :: bs) s = handOver bs (rxByte b s) := if_pos ha
      rw [hcons]
      rcases rxByte_keepsOrCommits b ha with hkeeps | ⟨hop, _, hdone⟩
      · exact (ih _).of_keepsReading hkeeps (rxByte_op b ha) hp
      · rw [handOver_of_not_accepts hdone.takes_no_byte]
        exact .inr ⟨hop, hp, hdone⟩

/-! #### The step -/

theorem exec_keepsOrCommits {i : Instr} {s t : State} (h : exec i s = .next t) : KeepsOrCommits s t := by
  rcases exec_next h with ⟨_, op, arg, rfl⟩ | ⟨_, op, arg, hp, rfl⟩ | rfl | ⟨bytes, rfl⟩
  · exact .inl (hostStart_keepsReading op arg s)
  · exact .inl (sendRequest_keepsReading hp)
  · exact .of_eq rfl rfl
  · exact handOver_keepsOrCommits (s.rx ++ bytes) s

/-- Only `reset` writes the reading otherwise than by the commit of a READ. -/
theorem step_keepsOrCommits {s t : State} {e : Input} {rest : List Input} (hin : s.inbox = e :: rest) (hne : e ≠ .reset)
    (h : step s = .next t) : KeepsOrCommits s t := by
  rcases step_next h with ⟨_, rfl⟩ | ⟨e', rest', hin', hcase⟩
  · exact .of_eq rfl rfl
  obtain ⟨rfl, rfl⟩ : e = e' ∧ rest = rest' := List.cons.inj (hin.symm.trans hin')
  -- the inbox is no part of what `KeepsOrCommits` speaks of
  change KeepsOrCommits { s with inbox := rest } t
  rcases hcase with ⟨_, _, _, _, hx⟩ | ⟨_, rfl⟩ | ⟨_, rfl⟩ | ⟨_, rfl⟩ | ⟨_, rfl⟩ | ⟨_, rfl⟩ | ⟨hr, _⟩ | ⟨b, _, rfl⟩
  · exact exec_keepsOrCommits hx
  · exact txAccept_keepsOrCommits _
  · exact waitDone_keepsOrCommits _
  · exact takeRxByte_keepsOrCommits _
  · exact takeRxTimeout_keepsOrCommits _
  · exact ioFault_keepsOrCommits _
  · exact absurd hr hne
  · exact .of_eq rfl rfl

/-- Settles O51: a step that changes the reading or sets `RVALID` does not keep the reading, so it commits one; the other
two clauses are `complete` with and without a commit. -/
theorem readingIsCommittedOnlyByAnOkRead : Obligations.ReadingIsCommittedOnlyByAnOkRead := by
  unfold Obligations.ReadingIsCommittedOnlyByAnOkRead
  refine ⟨fun s t e rest hin hne hstep hchange => ?_, fun s st h => complete_no_commit h, fun s hop => ?_⟩
  · rcases step_keepsOrCommits hin hne hstep with ⟨hr, hv⟩ | ⟨hop, hp, hop', hidle, hdone, hst, hv, hr⟩
    · rcases hchange with hr' | ⟨hv', hs⟩
      · exact absurd hr hr'
      · simp [hv hv'] at hs
    · exact ⟨hop, hop', hp, hidle, hdone, hst, hv, hr⟩
  · obtain ⟨_, _, _, _, hv, hr⟩ := complete_ok_read hop
    exact ⟨hv, hr, fun k hk => by rw [hr]; exact getElem_codec _ k hk⟩

end Sys2Proof.Machine

namespace Sys2Proof.Machine

/-! ### `MODE` and its one commit (45_session.md rule R206) -/

/-- Where a SET_MODE that was in progress in `s` has just completed with OK, and `MODE` has become the `REQ_MODE` of `s`. -/
def AcknowledgedSetMode (s t : State) : Prop :=
  s.op = .setMode ∧ t.op = .setMode ∧ t.mode = s.reqMode ∧ s.phase ≠ .idle ∧ t.phase = .idle ∧ t.done = true ∧ t.status = .ok

/-- From `s` to `t`, `MODE` is left alone or committed by a SET_MODE. -/
def KeepsOrSetsMode (s t : State) : Prop := t.mode = s.mode ∨ AcknowledgedSetMode s t

/-- `u` is reached within the operation of `s`: its latched operation and its `REQ_MODE` are those of `s`, no operation has
begun, and `MODE` has changed by its commit alone. -/
structure WithinOperation (s u : State) : Prop where
  op_eq : u.op = s.op
  reqMode_eq : u.reqMode = s.reqMode
  busy_before : u.phase ≠ .idle → s.phase ≠ .idle
  mode : KeepsOrSetsMode s u

theorem WithinOperation.refl (s : State) : WithinOperation s s := ⟨rfl, rfl, id, .inl rfl⟩

/-- While the operation goes on, nothing is committed. -/
theorem WithinOperation.mode_eq_of_busy {s u : State} (h : WithinOperation s u) (hp : u.phase ≠ .idle) : u.mode = s.mode := by
  rcases h.mode with hm | ⟨_, _, _, _, hidle, _⟩
  · exact hm
  · exact absurd hidle hp

/-- An update in the middle of the operation that writes none of `OP`, `REQ_MODE` and `MODE`. -/
theorem WithinOperation.update {s u t : State} (h : WithinOperation s u) (hp : u.phase ≠ .idle) (hop : t.op = u.op)
    (hreq : t.reqMode = u.reqMode) (hmode : t.mode = u.mode) : WithinOperation s t :=
  ⟨hop.trans h.op_eq, hreq.trans h.reqMode_eq, fun _ => h.busy_before hp, .inl (hmode.trans (h.mode_eq_of_busy hp))⟩

/-- The one place of the commit: `complete` with OK of a SET_MODE. -/
theorem WithinOperation.complete {s u : State} (h : WithinOperation s u) (hp : u.phase ≠ .idle) (st : Status) :
    WithinOperation s (complete st u) := by
  by_cases hset : st = .ok ∧ u.op = .setMode
  · obtain ⟨rfl, hop⟩ := hset
    have hmode : (Machine.complete .ok u).mode = s.reqMode := by simp [hop, h.reqMode_eq]
    exact ⟨h.op_eq, h.reqMode_eq, fun _ => h.busy_before hp,
      .inr ⟨h.op_eq ▸ hop, hop, hmode, h.busy_before hp, rfl, rfl, rfl⟩⟩
  · exact h.update hp rfl rfl (if_neg hset)

/-! #### The events and a whole frame -/

theorem txAccept_withinOperation (s : State) : WithinOperation s (txAccept s) := by
  rcases txAccept_cases s with ⟨hp, _, hsent⟩ | ⟨_, ht⟩
  · have hbusy : s.phase ≠ .idle := by simp [hp]
    rcases hsent with ⟨_, ht⟩ | ⟨_, _, ht⟩ | ⟨_, _, ht⟩ <;> rw [ht]
    · exact (WithinOperation.refl s).update hbusy rfl rfl rfl
    · exact (WithinOperation.refl s).update hbusy rfl rfl rfl
    · exact ((WithinOperation.refl s).update (t := sendByte _ s) hbusy rfl rfl rfl).complete hbusy .ok
  · rw [ht]
    exact .refl s

theorem waitDone_withinOperation (s : State) : WithinOperation s (waitDone s) := by
  rcases waitDone_cases s with ⟨hp, ht⟩ | ⟨_, ht⟩ <;> rw [ht]
  · exact (WithinOperation.refl s).update (by simp [hp]) rfl rfl rfl
  · exact .refl s

theorem WithinOperation.rxByte {s u : State} (h : WithinOperation s u) (b : Byte) (ha : acceptsByte u = true) :
    WithinOperation s (rxByte b u) := by
  have hbusy : u.phase ≠ .idle := by rcases acceptsByte_phase ha with hp | hp <;> simp [hp]
  rcases rxByte_cases b u ha with ⟨_, _, _, ht⟩ | ⟨_, _, ht⟩ | ⟨_, _, ht⟩ | ⟨_, _, ht⟩ <;> rw [ht]
  · exact h.update hbusy rfl rfl rfl
  · exact h.update hbusy rfl rfl rfl
  · exact h.update hbusy rfl rfl rfl
  · exact (h.update (t := storeByte b u) hbusy rfl rfl rfl).complete hbusy _

/-- What is queued in RX has no part in an operation's record. -/
theorem WithinOperation.with_rx {s u : State} (h : WithinOperation s u) (r : List Byte) : WithinOperation s { u with rx := r } :=
  ⟨h.op_eq, h.reqMode_eq, h.busy_before, h.mode⟩

theorem takeRxByte_withinOperation (s : State) : WithinOperation s (takeRxByte s) := by
  rcases takeRxByte_cases s with ⟨b, bs, _, ha, ht⟩ | ⟨_, ht⟩ <;> rw [ht]
  · exact ((WithinOperation.refl s).with_rx bs).rxByte b ha
  · exact .refl s

theorem takeRxTimeout_withinOperation (s : State) : WithinOperation s (takeRxTimeout s) := by
  rcases takeRxTimeout_cases s with ⟨_, hp, ht⟩ | ⟨_, ht⟩ <;> rw [ht]
  · exact (WithinOperation.refl s).complete (by rcases hp with hp | hp <;> simp [hp]) .sensorError
  · exact .refl s

theorem ioFault_withinOperation (s : State) : WithinOperation s (ioFault s) := by
  rcases ioFault_cases s with ⟨hp, ht⟩ | ⟨_, ht⟩ <;> rw [ht]
  · exact (WithinOperation.refl s).complete (by rcases hp with hp | hp | hp <;> simp [hp]) .sensorError
  · exact .refl s

/-- Every byte of a queue is received within the operation that was in progress before the first. -/
theorem handOver_withinOperation (bs : List Byte) (s : State) : WithinOperation s (handOver bs s) :=
  handOver_preserves (fun _ r h => h.with_rx r) (fun b _ ha h => h.rxByte b ha) bs s (.refl s)

/-! #### A start and a whole request -/

/-- `host_start` reads `MODE` and does not write it. -/
theorem hostStart_mode (op : HostOp) (arg : U16) (s : State) : (hostStart op arg s).mode = s.mode := by
  rcases hostStart_cases op arg s with
    ⟨_, _, hs⟩ | ⟨_, _, hs⟩ | ⟨_, hs⟩ | ⟨_, hs⟩ | ⟨_, _, hs⟩ | ⟨_, _, hs⟩ <;> rw [hs] <;> rfl

/-- Only WAKEUP sends a request that expects no response. -/
theorem hostStart_expect {op : HostOp} {arg : U16} {s : State} (hp : (hostStart op arg s).phase = .tx)
    (hop : (hostStart op arg s).op ≠ .wakeup) : (hostStart op arg s).expect = true := by
  rcases hostStart_cases op arg s with
    ⟨_, _, hs⟩ | ⟨_, _, hs⟩ | ⟨_, hs⟩ | ⟨_, hs⟩ | ⟨_, _, hs⟩ | ⟨_, _, hs⟩ <;> rw [hs] at hp hop ⊢
  · simp [startReadActive] at hp
  · rfl
  · exact absurd rfl hop
  · rfl
  · rfl
  · simp at hp

/-- A SET_MODE that waits for its response is not completed by a `tx_accept`. -/
theorem txAccept_mode {s : State} (h : s.op = .setMode → s.expect = true) : (txAccept s).mode = s.mode := by
  rcases txAccept_cases s with ⟨_, _, ⟨_, ht⟩ | ⟨_, _, ht⟩ | ⟨_, hexp, ht⟩⟩ | ⟨_, ht⟩ <;> rw [ht]
  · rfl
  · rfl
  · have hop : s.op ≠ .setMode := fun hset => by simpa [hexp] using h hset
    exact if_neg fun hset => hop hset.2

theorem acceptBytes_mode (n : Nat) {s : State} (h : s.op = .setMode → s.expect = true) :
    (acceptBytes n s).mode = s.mode := by
  induction n generalizing s with
  | zero => rfl
  | succ n ih => exact (ih (by rwa [txAccept_op, txAccept_expect])).trans (txAccept_mode h)

/-- A request that is sent whole has not been answered yet. -/
theorem sendRequest_mode {op : HostOp} {arg : U16} {s : State} (hp : (hostStart op arg s).phase = .tx) :
    (sendRequest op arg s).mode = s.mode := by
  have hexp : (hostStart op arg s).op = .setMode → (hostStart op arg s).expect = true :=
    fun hop => hostStart_expect hp (by simp [hop])
  exact (acceptBytes_mode Config.cmdLen hexp).trans (hostStart_mode op arg s)

/-! #### The step -/

theorem exec_keepsOrSetsMode {i : Instr} {s t : State} (h : exec i s = .next t) : KeepsOrSetsMode s t := by
  rcases exec_next h with ⟨_, op, arg, rfl⟩ | ⟨_, op, arg, hp, rfl⟩ | rfl | ⟨bytes, rfl⟩
  · exact .inl (hostStart_mode op arg s)
  · exact .inl (sendRequest_mode hp)
  · exact .inl rfl
  · exact (handOver_withinOperation (s.rx ++ bytes) s).mode

/-- Only `reset` writes `MODE` otherwise than by the commit of a SET_MODE. -/
theorem step_keepsOrSetsMode {s t : State} {e : Input} {rest : List Input} (hin : s.inbox = e :: rest) (hne : e ≠ .reset)
    (h : step s = .next t) : KeepsOrSetsMode s t := by
  rcases step_next h with ⟨_, rfl⟩ | ⟨e', rest', hin', hcase⟩
  · exact .inl rfl
  obtain ⟨rfl, rfl⟩ : e = e' ∧ rest = rest' := List.cons.inj (hin.symm.trans hin')
  -- the inbox is no part of what `KeepsOrSetsMode` speaks of
  change KeepsOrSetsMode { s with inbox := rest } t
  rcases hcase with ⟨_, _, _, _, hx⟩ | ⟨_, rfl⟩ | ⟨_, rfl⟩ | ⟨_, rfl⟩ | ⟨_, rfl⟩ | ⟨_, rfl⟩ | ⟨hr, _⟩ | ⟨b, _, rfl⟩
  · exact exec_keepsOrSetsMode hx
  · exact (txAccept_withinOperation _).mode
  · exact (waitDone_withinOperation _).mode
  · exact (takeRxByte_withinOperation _).mode
  · exact (takeRxTimeout_withinOperation _).mode
  · exact (ioFault_withinOperation _).mode
  · exact absurd hr hne
  · exact .inl rfl

/-- Settles O50: a step that changes `MODE` does not keep it, so it is the commit of a SET_MODE; the second clause is
`complete` with OK and with the two errors. -/
theorem modeChangesOnlyAtAcknowledgedSetMode : Obligations.ModeChangesOnlyAtAcknowledgedSetMode := by
  unfold Obligations.ModeChangesOnlyAtAcknowledgedSetMode
  refine ⟨fun s t e rest hin hne hstep hchange => ?_, fun s hop => ⟨?_, ?_, ?_⟩⟩
  · exact (step_keepsOrSetsMode hin hne hstep).resolve_left hchange
  · exact if_pos ⟨rfl, hop⟩
  · rw [complete_error (by decide)]
  · rw [complete_error (by decide)]

end Sys2Proof.Machine

namespace Sys2Proof.Machine

/-! ### The rejected argument of SET_MODE (45_session.md rule R207) -/

/-- A rejected SET_MODE started in `IDLE` writes the result registers and `OP`, and stays in `IDLE`. -/
theorem hostStart_setMode_rejected {arg : U16} {s : State} (hp : s.phase = .idle) (h0 : arg ≠ 0) (h1 : arg ≠ 1) :
    hostStart .setMode arg s = { s with done := true, status := .usageError, rvalid := false, op := .setMode } := by
  rw [hostStart_setMode_illegal h0 h1]
  simp [usageError, latch, hp]

/-- Settles O27: the row and the step on the host word are both `host_start` in `IDLE`, with an argument it rejects. -/
theorem illegalSetModeReportsUsageError : Obligations.IllegalSetModeReportsUsageError := by
  unfold Obligations.IllegalSetModeReportsUsageError
  refine ⟨fun s arg hp h0 h1 => ?_, fun s h rest hp hin hop h0 h1 => ?_⟩
  · calc exec (.setModeOpIllegal arg) s = .next (hostStart .setMode arg s) := whenIdle_idle hp
      _ = _ := congrArg Host.Outcome.next (hostStart_setMode_rejected hp h0 h1)
  · calc step s = .next (hostStart .setMode (hostWordArg h) { s with inbox := rest }) :=
        (step_hostWord hin).trans (hop ▸ whenIdle_idle hp)
      _ = _ := congrArg Host.Outcome.next (hostStart_setMode_rejected hp h0 h1)

end Sys2Proof.Machine

namespace Sys2Proof.Machine

/-! ### ChecksumMismatch and its one origin (60_exceptions.md rule R233) -/

/-- What the registers hold where an operation has just ended on a full payload that fails the check. -/
def FailedPayloadResult (t : State) : Prop :=
  t.phase = .idle ∧ t.done = true ∧ t.cnt.val = lenBytes t.len ∧ check (capturedPayload t.buf t.len) = false

/-- If ChecksumMismatch is reported, a full payload has just failed the check. -/
def MismatchOnlyOfPayload (t : State) : Prop := t.status = .checksumMismatch → FailedPayloadResult t

/-- From `s` to `t` ChecksumMismatch is brought about by a block that receives, and by a failed payload, if at all. -/
def MismatchOnlyByReception (s t : State) : Prop :=
  s.status ≠ .checksumMismatch → t.status = .checksumMismatch →
    (s.phase = .hunt ∨ s.phase = .capture) ∧ FailedPayloadResult t

/-- The status of a full payload is ChecksumMismatch exactly when it fails the check. -/
theorem verdict_mismatch (s : State) : verdict s = .checksumMismatch ↔ check (capturedPayload s.buf s.len) = false := by
  unfold verdict
  split <;> simp [*]

/-! #### The synchronizer, where the mismatch arises -/

/-- A byte that brings the mismatch about is the last of its payload. -/
theorem rxByte_mismatch (b : Byte) {s : State} (ha : acceptsByte s = true) (hs : s.status ≠ .checksumMismatch) :
    MismatchOnlyOfPayload (rxByte b s) := by
  intro ht
  rcases rxByte_cases b s ha with ⟨_, _, _, hr⟩ | ⟨_, _, hr⟩ | ⟨_, _, hr⟩ | ⟨_, hlast, hr⟩ <;> rw [hr] at ht ⊢
  · exact absurd ht hs
  · exact absurd ht hs
  · exact absurd ht hs
  · have hcnt : s.cnt.val < 30 := by
      have := lenBytes_le s.len
      omega
    exact ⟨rfl, rfl, (storeByte_cnt_val b hcnt).trans hlast, (verdict_mismatch (storeByte b s)).mp ht⟩

theorem takeRxByte_mismatch (s : State) : MismatchOnlyByReception s (takeRxByte s) := by
  intro hs ht
  rcases takeRxByte_cases s with ⟨b, bs, _, ha, hr⟩ | ⟨_, hr⟩ <;> rw [hr] at ht ⊢
  · exact ⟨acceptsByte_phase ha, rxByte_mismatch b (s := { s with rx := bs }) ha hs ht⟩
  · exact absurd ht hs

/-- A block that still takes bytes has not just ended on a failed payload. -/
theorem MismatchOnlyOfPayload.rxByte {s : State} (h : MismatchOnlyOfPayload s) (b : Byte) (ha : acceptsByte s = true) :
    MismatchOnlyOfPayload (rxByte b s) := by
  refine rxByte_mismatch b ha fun hs => ?_
  obtain ⟨hidle, _⟩ := h hs
  simp [acceptsByte, hidle] at ha

/-- A queue brings the mismatch about only where its first byte is taken, and by the last byte that is. -/
theorem handOver_mismatch (bs : List Byte) (s : State) : MismatchOnlyByReception s (handOver bs s) := by
  intro hs ht
  cases ha : acceptsByte s with
  | false =>
    rw [handOver_of_not_accepts ha] at ht
    exact absurd ht hs
  | true =>
    have hkept : MismatchOnlyOfPayload (handOver bs s) :=
      handOver_preserves (fun _ _ h => h) (fun b _ ha h => h.rxByte b ha) bs s fun h => absurd h hs
    exact ⟨acceptsByte_phase ha, hkept ht⟩

/-! #### The other events and a start, which never bring it about -/

theorem txAccept_no_mismatch (s : State) (hs : s.status ≠ .checksumMismatch) :
    (txAccept s).status ≠ .checksumMismatch := by
  rcases txAccept_cases s with ⟨_, _, ⟨_, ht⟩ | ⟨_, _, ht⟩ | ⟨_, _, ht⟩⟩ | ⟨_, ht⟩ <;> rw [ht]
  · exact hs
  · exact hs
  · simp
  · exact hs

theorem waitDone_status (s : State) : (waitDone s).status = s.status := by
  rcases waitDone_cases s with ⟨_, ht⟩ | ⟨_, ht⟩ <;> rw [ht]
  exact enterHunt_status s

theorem takeRxTimeout_no_mismatch {s : State} (hs : s.status ≠ .checksumMismatch) :
    (takeRxTimeout s).status ≠ .checksumMismatch := by
  rcases takeRxTimeout_cases s with ⟨_, _, ht⟩ | ⟨_, ht⟩ <;> rw [ht]
  · simp
  · exact hs

theorem ioFault_no_mismatch {s : State} (hs : s.status ≠ .checksumMismatch) :
    (ioFault s).status ≠ .checksumMismatch := by
  rcases ioFault_cases s with ⟨_, ht⟩ | ⟨_, ht⟩ <;> rw [ht]
  · simp
  · exact hs

/-- `host_start` clears the status, or reports UsageError. -/
theorem hostStart_no_mismatch (op : HostOp) (arg : U16) (s : State) :
    (hostStart op arg s).status ≠ .checksumMismatch := by
  rcases hostStart_cases op arg s with
    ⟨_, _, hs⟩ | ⟨_, _, hs⟩ | ⟨_, hs⟩ | ⟨_, hs⟩ | ⟨_, _, hs⟩ | ⟨_, _, hs⟩ <;> rw [hs] <;> exact Status.noConfusion

theorem sendRequest_no_mismatch (op : HostOp) (arg : U16) (s : State) :
    (sendRequest op arg s).status ≠ .checksumMismatch :=
  acceptBytes_preserves txAccept_no_mismatch Config.cmdLen _ (hostStart_no_mismatch op arg s)

/-! #### The step -/

theorem exec_mismatch {i : Instr} {s t : State} (h : exec i s = .next t) : MismatchOnlyByReception s t := by
  rcases exec_next h with ⟨_, op, arg, rfl⟩ | ⟨_, op, arg, _, rfl⟩ | rfl | ⟨bytes, rfl⟩
  · exact fun _ ht => absurd ht (hostStart_no_mismatch op arg s)
  · exact fun _ ht => absurd ht (sendRequest_no_mismatch op arg s)
  · exact fun hs ht => absurd ht hs
  · exact handOver_mismatch (s.rx ++ bytes) s

/-- A step that brings ChecksumMismatch about has received the last byte of a payload that fails the check. -/
theorem step_mismatch {s t : State} (h : step s = .next t) : MismatchOnlyByReception s t := by
  rcases step_next h with ⟨_, rfl⟩ | ⟨_, rest, _, hcase⟩
  · exact fun hs ht => absurd ht hs
  -- the inbox is no part of what `MismatchOnlyByReception` speaks of
  change MismatchOnlyByReception { s with inbox := rest } t
  rcases hcase with ⟨_, _, _, _, hx⟩ | ⟨_, rfl⟩ | ⟨_, rfl⟩ | ⟨_, rfl⟩ | ⟨_, rfl⟩ | ⟨_, rfl⟩ | ⟨_, rfl⟩ | ⟨_, _, rfl⟩
  · exact exec_mismatch hx
  · exact fun hs ht => absurd ht (txAccept_no_mismatch _ hs)
  · exact fun hs ht => absurd ((waitDone_status _).symm.trans ht) hs
  · exact takeRxByte_mismatch _
  · exact fun hs ht => absurd ht (takeRxTimeout_no_mismatch hs)
  · exact fun hs ht => absurd ht (ioFault_no_mismatch hs)
  · exact fun _ ht => Status.noConfusion ht
  · exact fun hs ht => absurd ht hs

/-- Settles O52: of all the inputs only received bytes bring the mismatch about, and the byte that does is the last of a
full payload. -/
theorem mismatchOnlyAfterAFullPayload : Obligations.MismatchOnlyAfterAFullPayload := by
  unfold Obligations.MismatchOnlyAfterAFullPayload
  exact fun s t _ _ _ hstep ht hs => step_mismatch hstep hs ht

end Sys2Proof.Machine

namespace Sys2Proof.Machine

/-! ### Splitting and rebuilding 16-bit values, and the host word (30_encoding.md rules R85, R86, R92) -/

theorem toNat_hi (v : U16) : (hi v).toNat = v.toNat / 256 := by
  rw [hi, BitVec.toNat_setWidth, BitVec.toNat_ushiftRight, Nat.shiftRight_eq_div_pow]
  omega

theorem toNat_lo (v : U16) : (lo v).toNat = v.toNat % 256 :=
  BitVec.toNat_setWidth ..

@[simp] theorem word16_hi_lo (v : U16) : word16 (hi v) (lo v) = v := by
  apply BitVec.eq_of_toNat_eq
  rw [toNat_word16, toNat_hi, toNat_lo]
  omega

@[simp] theorem hi_word16 (h l : Byte) : hi (word16 h l) = h := by
  apply BitVec.eq_of_toNat_eq
  rw [toNat_hi, toNat_word16]
  omega

@[simp] theorem lo_word16 (h l : Byte) : lo (word16 h l) = l := by
  apply BitVec.eq_of_toNat_eq
  rw [toNat_lo, toNat_word16]
  omega

theorem opOfCode_opCode (op : HostOp) : opOfCode (opCode op) = op := by
  cases op <;> decide

theorem opCode_opOfCode : ∀ c : BitVec 2, opCode (opOfCode c) = c := by decide

@[simp] theorem hostWordOp_hostWord (op : HostOp) (arg : U16) : hostWordOp (hostWord op arg) = op := by
  rw [hostWordOp, hostWord, BitVec.extractLsb'_append_eq_left, opOfCode_opCode]

@[simp] theorem hostWordArg_hostWord (op : HostOp) (arg : U16) : hostWordArg (hostWord op arg) = arg :=
  BitVec.setWidth_append_eq_right

/-- No bit of a host word lies outside its two operands. -/
theorem hostWord_operands (h : HostWord) : hostWord (hostWordOp h) (hostWordArg h) = h := by
  rw [hostWord, hostWordOp, hostWordArg, opCode_opOfCode]
  apply BitVec.eq_of_toNat_eq
  rw [BitVec.toNat_append, ← Nat.shiftLeft_add_eq_or_of_lt (BitVec.isLt _), BitVec.extractLsb'_toNat,
    BitVec.toNat_setWidth, Nat.shiftLeft_eq, Nat.shiftRight_eq_div_pow]
  omega

/-- Settles O13: each side is compared as a number, `256 * high + low`. -/
theorem splittingAndRebuildingAreInverse : Obligations.SplittingAndRebuildingAreInverse := by
  unfold Obligations.SplittingAndRebuildingAreInverse
  exact ⟨word16_hi_lo, fun h l => ⟨hi_word16 h l, lo_word16 h l⟩⟩

end Sys2Proof.Machine

namespace Sys2Proof.Machine

/-! ### Decoding and encoding (30_encoding.md rules R80, R89, R92) -/

/-! #### Host words -/

theorem decodeHost_wellFormed (m : Mode) (h : HostWord) : (decodeHost m h).wellFormed = true := by
  unfold decodeHost
  cases hostWordOp h with
  | read => cases m <;> rfl
  | wakeup => rfl
  | sleep => rfl
  | setMode =>
    simp only
    split_ifs with h0 h1
    · rfl
    · rfl
    · simpa [Instr.wellFormed] using ⟨h0, h1⟩

theorem encode_decodeHost (m : Mode) (h : HostWord) : encode (decodeHost m h) = .host h := by
  have hw := hostWord_operands h
  unfold decodeHost
  cases hop : hostWordOp h <;> rw [hop] at hw
  case read => cases m <;> exact congrArg Encoded.host hw
  case wakeup => exact congrArg Encoded.host hw
  case sleep => exact congrArg Encoded.host hw
  case setMode =>
    simp only
    split_ifs with h0 h1
    · rw [h0] at hw
      exact congrArg Encoded.host hw
    · rw [h1] at hw
      exact congrArg Encoded.host hw
    · exact congrArg Encoded.host hw

theorem decodeHost_rowMode (m : Mode) (h : HostWord) : (decodeHost m h).rowMode m = true := by
  unfold decodeHost
  cases hostWordOp h with
  | read => cases m <;> rfl
  | wakeup => rfl
  | sleep => rfl
  | setMode =>
    simp only
    split_ifs <;> rfl

/-! #### Frames -/

theorem decodeFrame_marker (p : List Byte) : decodeFrame (0x42 :: 0x4D :: p) = decodePayload p := rfl

/-- A frame with the marker is decoded by what follows it, and every other frame is rejected. -/
theorem decodeFrame_cases (bs : List Byte) :
    (∃ p, bs = 0x42 :: 0x4D :: p)
    ∨ (bs.take 2 ≠ [0x42, 0x4D] ∧ ∃ e, decodeFrame bs = .rejected e) := by
  rcases bs with _ | ⟨b0, _ | ⟨b1, p⟩⟩
  · exact .inr ⟨by simp, _, rfl⟩
  · exact .inr ⟨by simp, _, rfl⟩
  · by_cases h : b0 = 0x42#8 ∧ b1 = 0x4D#8
    · obtain ⟨rfl, rfl⟩ := h
      exact .inl ⟨p, rfl⟩
    · exact .inr ⟨by simpa using h, _, if_neg h⟩

theorem decodePayload_ack (q : Vector Byte 6) : decodePayload q.toList = .ok (.ackFrame q) := by
  unfold decodePayload
  split
  · rename_i heq
    simpa using congrArg List.length heq
  · exact dif_pos (by simp)

theorem decodePayload_reading (q : Vector Byte 30) : decodePayload q.toList = .ok (.readingFrame q) := by
  unfold decodePayload
  split
  · rename_i heq
    simpa using congrArg List.length heq
  · exact (dif_neg (by simp)).trans (dif_pos (by simp))

theorem decodePayload_badLength {p : List Byte} (h5 : p.length ≠ 5) (h6 : p.length ≠ 6) (h30 : p.length ≠ 30) :
    decodePayload p = .rejected .badLength := by
  unfold decodePayload
  split
  · exact absurd rfl h5
  · simp [h6, h30]

/-- What follows a marker is a command, an acknowledgement, a reading, or of no kind. -/
theorem decodePayload_cases (p : List Byte) :
    (∃ o dh dl ch cl, p = [o, dh, dl, ch, cl] ∧ decodePayload p = .ok (decodeCommand o dh dl ch cl))
    ∨ (∃ q : Vector Byte 6, p = q.toList ∧ decodePayload p = .ok (.ackFrame q))
    ∨ (∃ q : Vector Byte 30, p = q.toList ∧ decodePayload p = .ok (.readingFrame q))
    ∨ ((p.length ≠ 5 ∧ p.length ≠ 6 ∧ p.length ≠ 30) ∧ decodePayload p = .rejected .badLength) := by
  by_cases h5 : p.length = 5
  · obtain ⟨o, dh, dl, ch, cl, rfl⟩ : ∃ o dh dl ch cl, p = [o, dh, dl, ch, cl] := by
      match p, h5 with
      | [o, dh, dl, ch, cl], _ => exact ⟨o, dh, dl, ch, cl, rfl⟩
    exact .inl ⟨o, dh, dl, ch, cl, rfl, rfl⟩
  by_cases h6 : p.length = 6
  · exact .inr (.inl ⟨⟨p.toArray, h6⟩, rfl, decodePayload_ack ⟨p.toArray, h6⟩⟩)
  by_cases h30 : p.length = 30
  · exact .inr (.inr (.inl ⟨⟨p.toArray, h30⟩, rfl, decodePayload_reading ⟨p.toArray, h30⟩⟩))
  · exact .inr (.inr (.inr ⟨⟨h5, h6, h30⟩, decodePayload_badLength h5 h6 h30⟩))

/-! #### Command frames -/

/-- The five fixed patterns are kept as they are, and the generic row keeps every byte in its operands. -/
theorem encode_decodeCommand (o dh dl ch cl : Byte) :
    encode (decodeCommand o dh dl ch cl) = .frame (0x42 :: 0x4D :: [o, dh, dl, ch, cl]) := by
  unfold decodeCommand
  split_ifs with hwakeup hsleep hactive hpassive hread
  · rw [hwakeup]; rfl
  · rw [hsleep]; rfl
  · rw [hactive]; rfl
  · rw [hpassive]; rfl
  · rw [hread]; rfl
  · simp [encode]

/-- The operands of a frame that equals one of the five patterns are that pattern's pair. -/
theorem pair_of_command_bytes {o : Byte} {d c : U16} {o' dh dl ch cl : Byte}
    (h : [o, hi d, lo d, hi c, lo c] = [o', dh, dl, ch, cl]) : (o, d) = (o', word16 dh dl) := by
  simp only [List.cons.injEq] at h
  obtain ⟨rfl, rfl, rfl, _⟩ := h
  rw [word16_hi_lo]

/-- A pair that is none of the five defined ones is a generic command, whatever its checksum is (rule R89). -/
theorem decodeCommand_generic {o : Byte} {d : U16} (c : U16) (h : (o, d) ∉ definedPairs) :
    decodeCommand o (hi d) (lo d) (hi c) (lo c) = .cmdGeneric o d c := by
  have hne {o' dh dl ch cl : Byte} (hmem : (o', word16 dh dl) ∈ definedPairs) :
      [o, hi d, lo d, hi c, lo c] ≠ [o', dh, dl, ch, cl] := fun heq => h (pair_of_command_bytes heq ▸ hmem)
  unfold decodeCommand
  rw [if_neg (hne (by decide)), if_neg (hne (by decide)), if_neg (hne (by decide)), if_neg (hne (by decide)),
    if_neg (hne (by decide)), word16_hi_lo, word16_hi_lo]

/-! #### The two round trips -/

/-- Settles O2: the host rows by the two operands of their word, the frames by their length, the generic command by its
pair, which is none of the five. -/
theorem decodeOfEncodeIsTheInstruction : Obligations.DecodeOfEncodeIsTheInstruction := by
  unfold Obligations.DecodeOfEncodeIsTheInstruction
  intro m i hwf hmode
  cases i with
  | wakeup => rfl
  | sleep => rfl
  | setModeActive => rfl
  | setModePassive => rfl
  | passiveRead => rfl
  | cmdGeneric o d c =>
    have hpair : (o, d) ∉ definedPairs := by
      simp only [Instr.wellFormed, Bool.and_eq_true] at hwf
      simpa using hwf.2
    exact congrArg Decoded.ok (decodeCommand_generic c hpair)
  | readingFrame p => exact decodePayload_reading p
  | ackFrame p => exact decodePayload_ack p
  | readActive arg =>
    obtain rfl : m = .active := by simpa [Instr.rowMode] using hmode
    simp [encode, decode, decodeHost]
  | readPassive arg =>
    obtain rfl : m = .passive := by simpa [Instr.rowMode] using hmode
    simp [encode, decode, decodeHost]
  | wakeupOp arg => simp [encode, decode, decodeHost]
  | sleepOp arg => simp [encode, decode, decodeHost]
  | setModeOpPassive => simp [encode, decode, decodeHost]
  | setModeOpActive => simp [encode, decode, decodeHost]
  | setModeOpIllegal arg =>
    obtain ⟨h0, h1⟩ : arg ≠ 0 ∧ arg ≠ 1 := by simpa [Instr.wellFormed] using hwf
    have hrow : decodeHost m (hostWord .setMode arg) = .setModeOpIllegal arg := by
      simp only [decodeHost, hostWordOp_hostWord, hostWordArg_hostWord, if_neg h0, if_neg h1]
    exact congrArg Decoded.ok hrow

/-- The rows that are frames have no condition on `MODE`. -/
theorem rowMode_of_encode_frame {i : Instr} {bs : List Byte} (h : encode i = .frame bs) (m : Mode) : i.rowMode m = true := by
  cases i with
  | readActive arg => exact Encoded.noConfusion h
  | readPassive arg => exact Encoded.noConfusion h
  | _ => rfl

theorem encode_of_decodePayload {p : List Byte} {i : Instr} (h : decodePayload p = .ok i) :
    encode i = .frame (0x42 :: 0x4D :: p) := by
  rcases decodePayload_cases p with
    ⟨o, dh, dl, ch, cl, rfl, hp⟩ | ⟨q, rfl, hp⟩ | ⟨q, rfl, hp⟩ | ⟨_, hp⟩ <;> rw [hp] at h
  · obtain rfl := Decoded.ok.inj h
    exact encode_decodeCommand o dh dl ch cl
  · obtain rfl := Decoded.ok.inj h
    rfl
  · obtain rfl := Decoded.ok.inj h
    rfl
  · exact Decoded.noConfusion h

theorem encode_of_decode {m : Mode} {w : Encoded} {i : Instr} (h : decode m w = .ok i) : encode i = w := by
  cases w with
  | host hw =>
    obtain rfl := Decoded.ok.inj h
    exact encode_decodeHost m hw
  | frame bs =>
    have h : decodeFrame bs = .ok i := h
    rcases decodeFrame_cases bs with ⟨p, rfl⟩ | ⟨_, e, he⟩
    · exact encode_of_decodePayload h
    · exact Decoded.noConfusion (he.symm.trans h)

theorem rowMode_of_decode {m : Mode} {w : Encoded} {i : Instr} (h : decode m w = .ok i) : i.rowMode m = true := by
  cases w with
  | host hw =>
    obtain rfl := Decoded.ok.inj h
    exact decodeHost_rowMode m hw
  | frame bs => exact rowMode_of_encode_frame (encode_of_decode h) m

/-- Settles O3: each decoder keeps every bit of the word in the operands of its row. -/
theorem encodeOfDecodeIsTheWord : Obligations.EncodeOfDecodeIsTheWord := by
  unfold Obligations.EncodeOfDecodeIsTheWord
  exact fun m w i h => ⟨encode_of_decode h, rowMode_of_decode h⟩

/-! #### What is rejected, what never is -/

theorem decodePayload_rejected_iff (p : List Byte) :
    (∃ e, decodePayload p = .rejected e) ↔ ¬ (p.length = 5 ∨ p.length = 6 ∨ p.length = 30) := by
  rcases decodePayload_cases p with
    ⟨o, dh, dl, ch, cl, rfl, hp⟩ | ⟨q, rfl, hp⟩ | ⟨q, rfl, hp⟩ | ⟨hlen, hp⟩ <;> rw [hp]
  · simp
  · simp
  · simp
  · simp [hlen]

/-- Settles O4: without the marker a frame is rejected, and with it the number of bytes behind it decides. -/
theorem frameRejectedWithoutMarkerOrLength : Obligations.FrameRejectedWithoutMarkerOrLength := by
  unfold Obligations.FrameRejectedWithoutMarkerOrLength
  intro m bs
  change (∃ e, decodeFrame bs = .rejected e) ↔ _
  rcases decodeFrame_cases bs with ⟨p, rfl⟩ | ⟨hmark, hrej⟩
  · rw [decodeFrame_marker, decodePayload_rejected_iff]
    simp
  · exact iff_of_true hrej fun h => hmark h.1

/-- Settles O5: the last row of SET_MODE takes exactly the arguments that the two before it leave. -/
theorem everyHostWordIsAnInstruction : Obligations.EveryHostWordIsAnInstruction := by
  unfold Obligations.EveryHostWordIsAnInstruction
  exact fun m h => ⟨decodeHost m h, rfl, decodeHost_wellFormed m h⟩

/-- Settles O1: fifteen fixed words, evaluated. -/
theorem tableWordsDecodeToTheirRows : Obligations.TableWordsDecodeToTheirRows := by
  unfold Obligations.TableWordsDecodeToTheirRows
  decide

end Sys2Proof.Machine

namespace Sys2Proof.Machine

/-! ### What every step keeps

A property of states that does not speak of RX or the inbox is kept by every step if the block's events keep it one by
one. -/

/-- `P` is kept by each of the block's events, and by the ending of an operation in progress with SensorError. -/
structure KeptByEvents (P : State → Prop) : Prop where
  env : ∀ s r l, P s → P { s with rx := r, inbox := l }
  hostStart : ∀ op arg s, s.phase = .idle → P s → P (hostStart op arg s)
  txAccept : ∀ s, P s → P (txAccept s)
  waitDone : ∀ s, P s → P (waitDone s)
  rxByte : ∀ b s, acceptsByte s = true → P s → P (rxByte b s)
  sensorError : ∀ s, s.phase ≠ .idle → P s → P (complete .sensorError s)
  reset : ∀ s, P (reset s)

variable {P : State → Prop}

theorem KeptByEvents.with_rx (hP : KeptByEvents P) (s : State) (r : List Byte) (h : P s) : P { s with rx := r } :=
  hP.env s r s.inbox h

theorem KeptByEvents.handOver (hP : KeptByEvents P) (bs : List Byte) (s : State) (h : P s) : P (handOver bs s) :=
  handOver_preserves hP.with_rx hP.rxByte bs s h

theorem KeptByEvents.sendRequest (hP : KeptByEvents P) (op : HostOp) (arg : U16) {s : State} (hp : s.phase = .idle)
    (h : P s) : P (sendRequest op arg s) :=
  acceptBytes_preserves hP.txAccept Config.cmdLen _ (hP.hostStart op arg s hp h)

theorem KeptByEvents.exec (hP : KeptByEvents P) {i : Instr} {s t : State} (h : exec i s = .next t) (hs : P s) : P t := by
  rcases exec_next h with ⟨hp, op, arg, rfl⟩ | ⟨hp, op, arg, _, rfl⟩ | rfl | ⟨bytes, rfl⟩
  · exact hP.hostStart op arg s hp hs
  · exact hP.sendRequest op arg hp hs
  · exact hs
  · exact hP.handOver _ s hs

theorem KeptByEvents.takeRxByte (hP : KeptByEvents P) {s : State} (h : P s) : P (takeRxByte s) := by
  rcases takeRxByte_cases s with ⟨b, bs, _, ha, ht⟩ | ⟨_, ht⟩ <;> rw [ht]
  · exact hP.rxByte b _ ha (hP.with_rx s bs h)
  · exact h

theorem KeptByEvents.takeRxTimeout (hP : KeptByEvents P) {s : State} (h : P s) : P (takeRxTimeout s) := by
  rcases takeRxTimeout_cases s with ⟨_, hp, ht⟩ | ⟨_, ht⟩ <;> rw [ht]
  · exact hP.sensorError s (by rcases hp with hp | hp <;> simp [hp]) h
  · exact h

theorem KeptByEvents.ioFault (hP : KeptByEvents P) {s : State} (h : P s) : P (ioFault s) := by
  rcases ioFault_cases s with ⟨hp, ht⟩ | ⟨_, ht⟩ <;> rw [ht]
  · exact hP.sensorError s (by rcases hp with hp | hp | hp <;> simp [hp]) h
  · exact h

/-- The induction of every invariant: what the events keep, the step keeps. -/
theorem KeptByEvents.step (hP : KeptByEvents P) {s t : State} (h : step s = .next t) (hs : P s) : P t := by
  rcases step_next h with ⟨_, rfl⟩ | ⟨_, rest, _, hcase⟩
  · exact hs
  have hu : P { s with inbox := rest } := hP.env s s.rx rest hs
  rcases hcase with ⟨_, _, _, _, hx⟩ | ⟨_, rfl⟩ | ⟨_, rfl⟩ | ⟨_, rfl⟩ | ⟨_, rfl⟩ | ⟨_, rfl⟩ | ⟨_, rfl⟩ | ⟨b, _, rfl⟩
  · exact hP.exec hx hu
  · exact hP.txAccept _ hu
  · exact hP.waitDone _ hu
  · exact hP.takeRxByte hu
  · exact hP.takeRxTimeout hu
  · exact hP.ioFault hu
  · exact hP.reset _
  · exact hP.env s (s.rx ++ [b]) rest hs

end Sys2Proof.Machine

namespace Sys2Proof.Machine

/-! ### The register invariant (10_state.md rule R45) -/

/-- While an operation runs no reading is valid, since nothing is done. -/
theorem RegisterInv.rvalid_of_busy {s : State} (h : RegisterInv s) (hp : s.phase ≠ .idle) : s.rvalid = false := by
  have hdone := h.busy_not_done hp
  by_contra hv
  have := h.reading_valid (by simpa using hv)
  simp [hdone] at this

/-- An update that writes neither the result registers nor the command registers, in the middle of an operation. -/
theorem RegisterInv.update {s t : State} (h : RegisterInv s) (hp : s.phase ≠ .idle)
    (htxi : t.phase = .tx → t.txi.val ≤ 6) (hcnt : t.phase = .capture → t.cnt.val < lenBytes t.len)
    (hdone : t.done = s.done) (hv : t.rvalid = s.rvalid)
    (hcmd : (t.cmdOpcode, t.cmdData) = (s.cmdOpcode, s.cmdData)) : RegisterInv t where
  txi_in_range := htxi
  cnt_in_range := hcnt
  reading_valid hset := by simp [hv, h.rvalid_of_busy hp] at hset
  busy_not_done _ := hdone.trans (h.busy_not_done hp)
  command_pair := hcmd ▸ h.command_pair

/-- The end of an operation: a reading is valid only where it is committed, with OK. -/
theorem RegisterInv.complete {s u : State} (h : RegisterInv s) (hp : s.phase ≠ .idle) (st : Status)
    (hv : u.rvalid = s.rvalid) (hcmd : (u.cmdOpcode, u.cmdData) = (s.cmdOpcode, s.cmdData)) :
    RegisterInv (complete st u) where
  txi_in_range hp := by simp at hp
  cnt_in_range hp := by simp at hp
  reading_valid hset := by
    have hst : st = .ok ∧ u.op = .read := by
      by_contra hno
      simp [hno, hv, h.rvalid_of_busy hp] at hset
    exact ⟨rfl, hst.1⟩
  busy_not_done hbusy := absurd rfl hbusy
  command_pair := hcmd ▸ h.command_pair

/-- A start that loads a request leaves the result registers cleared and one of the defined pairs. -/
theorem registerInv_loadCmd {opcode : Byte} {data : U16} {resp : Option RespLen} {s : State}
    (hpair : (opcode, data) ∈ definedPairs) (hdone : s.done = false) (hv : s.rvalid = false) :
    RegisterInv (loadCmd opcode data resp s) where
  txi_in_range _ := Nat.zero_le 6
  cnt_in_range hp := by simp at hp
  reading_valid hset := by simp [hv] at hset
  busy_not_done _ := hdone
  command_pair := .inr hpair

theorem RegisterInv.hostStart {s : State} (h : RegisterInv s) (op : HostOp) (arg : U16) :
    RegisterInv (hostStart op arg s) := by
  rcases hostStart_cases op arg s with
    ⟨_, _, hs⟩ | ⟨_, _, hs⟩ | ⟨_, hs⟩ | ⟨_, hs⟩ | ⟨_, harg, hs⟩ | ⟨_, _, hs⟩ <;> rw [hs]
  · exact ⟨by simp [startReadActive], by simp [startReadActive], by simp [startReadActive], fun _ => rfl, h.command_pair⟩
  · exact registerInv_loadCmd (by decide) rfl rfl
  · exact registerInv_loadCmd (by decide) rfl rfl
  · exact registerInv_loadCmd (by decide) rfl rfl
  · exact registerInv_loadCmd (by rcases harg with rfl | rfl <;> decide) rfl rfl
  · exact ⟨by simp, by simp, by simp, by simp, h.command_pair⟩

theorem RegisterInv.txAccept {s : State} (h : RegisterInv s) : RegisterInv (txAccept s) := by
  rcases txAccept_cases s with ⟨hp, _, hsent⟩ | ⟨_, ht⟩
  · have hbusy : s.phase ≠ .idle := by simp [hp]
    rcases hsent with ⟨hlt, ht⟩ | ⟨_, _, ht⟩ | ⟨_, _, ht⟩ <;> rw [ht]
    · have hnext : (s.txi + 1).val = s.txi.val + 1 := Fin.val_add_one_of_lt' (by omega)
      exact h.update hbusy (fun _ => by simp [hnext]; omega) (by simp [hp]) rfl rfl rfl
    · exact h.update hbusy (by simp) (by simp) rfl rfl rfl
    · exact h.complete hbusy .ok rfl rfl
  · rw [ht]
    exact h

theorem RegisterInv.waitDone {s : State} (h : RegisterInv s) : RegisterInv (waitDone s) := by
  rcases waitDone_cases s with ⟨hp, ht⟩ | ⟨_, ht⟩ <;> rw [ht]
  · exact h.update (by simp [hp]) (by simp) (by simp) rfl rfl rfl
  · exact h

theorem lenBytes_pos (l : RespLen) : 0 < lenBytes l := by
  cases l <;> decide

theorem RegisterInv.rxByte {s : State} (h : RegisterInv s) (b : Byte) (ha : acceptsByte s = true) :
    RegisterInv (rxByte b s) := by
  have hbusy : s.phase ≠ .idle := by rcases acceptsByte_phase ha with hp | hp <;> simp [hp]
  rcases rxByte_cases b s ha with ⟨_, _, _, ht⟩ | ⟨hp, _, ht⟩ | ⟨hp, hlt, ht⟩ | ⟨_, _, ht⟩ <;> rw [ht]
  · exact h.update hbusy (by simp) (fun _ => lenBytes_pos s.len) rfl rfl rfl
  · exact h.update hbusy (by simp [hp]) (by simp [hp]) rfl rfl rfl
  · have hcnt : s.cnt.val < 30 := by
      have := lenBytes_le s.len
      omega
    exact h.update hbusy (by simp [hp]) (fun _ => storeByte_cnt_val b hcnt ▸ hlt) rfl rfl rfl
  · exact h.complete hbusy _ rfl rfl

theorem registerInv_reset (s : State) : RegisterInv (reset s) :=
  ⟨by simp [State.reset], by simp [State.reset], by simp [State.reset], fun _ => rfl, .inl rfl⟩

theorem registerInv_keptByEvents : KeptByEvents RegisterInv where
  env _ _ _ h := ⟨h.txi_in_range, h.cnt_in_range, h.reading_valid, h.busy_not_done, h.command_pair⟩
  hostStart op arg _ _ h := h.hostStart op arg
  txAccept _ h := h.txAccept
  waitDone _ h := h.waitDone
  rxByte b _ ha h := h.rxByte b ha
  sensorError _ hp h := h.complete hp .sensorError rfl rfl
  reset := registerInv_reset

/-- Settles O58: the invariant is inductive as it stands, event by event. -/
theorem everyStepKeepsTheRegisterInvariant : Obligations.EveryStepKeepsTheRegisterInvariant := by
  unfold Obligations.EveryStepKeepsTheRegisterInvariant
  exact fun s t h hstep => registerInv_keptByEvents.step hstep h

end Sys2Proof.Machine

namespace Sys2Proof.Machine

/-! ### The record of the operation in progress (30_encoding.md rule R88, 44_command_protocol.md rule R172) -/

/-- An operation that has a response is not WAKEUP. -/
theorem op_ne_wakeup_of_responseLen {op : HostOp} {l : RespLen} (h : responseLen op = some l) : op ≠ .wakeup := by
  rintro rfl
  simp [responseLen] at h

/-- In `IDLE` the record speaks of the reported status alone. -/
theorem operationRecord_of_idle {t : State} (hp : t.phase = .idle)
    (husage : t.done = true → t.status = .usageError → t.op = .setMode)
    (hmismatch : t.done = true → t.status = .checksumMismatch → t.op ≠ .wakeup) : OperationRecord t where
  command_loaded hbusy := by simp [hp] at hbusy
  read_request_mode hbusy := by simp [hp] at hbusy
  length_loaded hbusy := by simp [hp] at hbusy
  length_early hbusy := by simp [hp] at hbusy
  partly_sent hbusy := by simp [hp] at hbusy
  wholly_sent hbusy := by simp [hp] at hbusy
  sent_before_response hbusy := by simp [hp] at hbusy
  usage_error_op := husage
  mismatch_op := hmismatch

/-- The end of an operation in progress, on the statuses that end one. -/
theorem operationRecord_complete {st : Status} {s : State} (husage : st ≠ .usageError)
    (hmismatch : st = .checksumMismatch → s.op ≠ .wakeup) : OperationRecord (complete st s) :=
  operationRecord_of_idle rfl (fun _ hst => absurd hst husage) fun _ hst => hmismatch hst

/-! #### A start -/

/-- A start that loads the operation's own request. -/
theorem operationRecord_loadCmd {opcode : Byte} {data : U16} {s : State}
    (hpair : (opcode, data) = requestPair s.op s.reqMode) (hread : s.op = .read → s.mode = .passive)
    (hdone : s.done = false) : OperationRecord (loadCmd opcode data (responseLen s.op) s) where
  command_loaded _ := ⟨hpair, rfl, by simp [requestFrame, ← hpair]⟩
  read_request_mode _ := hread
  length_loaded hp := by simp at hp
  length_early _ hexp := by
    obtain ⟨l, hl⟩ := Option.isSome_iff_exists.mp hexp
    simp [hl]
  partly_sent _ := List.nil_suffix
  wholly_sent hp := by simp at hp
  sent_before_response hp := by simp at hp
  usage_error_op hd := by simp [hdone] at hd
  mismatch_op hd := by simp [hdone] at hd

/-- A READ in Active mode sends no request before its response. -/
theorem operationRecord_startReadActive {s : State} (hm : s.mode = .active) :
    OperationRecord (startReadActive (latch .read s)) where
  command_loaded hp := by simp [startReadActive] at hp
  read_request_mode hp := by simp [startReadActive] at hp
  length_loaded _ := rfl
  length_early hp := by simp [startReadActive] at hp
  partly_sent hp := by simp [startReadActive] at hp
  wholly_sent hp := by simp [startReadActive] at hp
  sent_before_response _ h := by simp [startReadActive, hm] at h
  usage_error_op hd := by simp [startReadActive] at hd
  mismatch_op hd := by simp [startReadActive] at hd

theorem operationRecord_usageError {s : State} (hop : s.op = .setMode) : OperationRecord (usageError s) :=
  operationRecord_of_idle rfl (fun _ _ => hop) fun _ => Status.noConfusion

/-- A legal argument of SET_MODE is the data of the request for the mode it names. -/
theorem requestPair_setMode {arg : U16} (h : arg = 0 ∨ arg = 1) :
    (Config.opSetMode, arg) = requestPair .setMode (modeOfArg arg) := by
  rcases h with rfl | rfl <;> decide

/-- Every start makes the record anew. -/
theorem operationRecord_hostStart (op : HostOp) (arg : U16) (s : State) : OperationRecord (hostStart op arg s) := by
  rcases hostStart_cases op arg s with
    ⟨_, hm, hs⟩ | ⟨_, hm, hs⟩ | ⟨_, hs⟩ | ⟨_, hs⟩ | ⟨_, harg, hs⟩ | ⟨_, _, hs⟩ <;> rw [hs]
  · exact operationRecord_startReadActive hm
  · exact operationRecord_loadCmd (s := latch .read s) rfl (fun _ => hm) rfl
  · exact operationRecord_loadCmd (s := latch .wakeup s) rfl (by simp) rfl
  · exact operationRecord_loadCmd (s := latch .sleep s) rfl (by simp) rfl
  · exact operationRecord_loadCmd (s := { latch .setMode s with reqMode := modeOfArg arg }) (requestPair_setMode harg)
      (by simp) rfl
  · exact operationRecord_usageError rfl

/-! #### Sending -/

/-- What is on the wire of the request grows by the byte that TXBUF holds at `TXI`. -/
theorem OperationRecord.sent_succ {s : State} (h : OperationRecord s) (hp : s.phase = .tx) (hlt : s.txi.val < 7) :
    (requestFrame s).take (s.txi.val + 1) <:+ s.txs ++ [s.txbuf[s.txi.val]] := by
  obtain ⟨_, _, hbuf⟩ := h.command_loaded (.inl hp)
  have hbyte : (requestFrame s).take (s.txi.val + 1) = (requestFrame s).take s.txi.val ++ [s.txbuf[s.txi.val]] := by
    rw [← hbuf, List.take_succ_eq_append_getElem (by simpa using hlt), Vector.getElem_toList]
  obtain ⟨before, hbefore⟩ := h.partly_sent hp
  exact ⟨before, by rw [hbyte, ← List.append_assoc, hbefore]⟩

theorem OperationRecord.txAccept {s : State} (h : OperationRecord s) : OperationRecord (txAccept s) := by
  rcases txAccept_cases s with ⟨hp, hlt, hsent⟩ | ⟨_, ht⟩
  · have hwire := h.sent_succ hp hlt
    rcases hsent with ⟨h6, ht⟩ | ⟨h6, hexp, ht⟩ | ⟨_, _, ht⟩ <;> rw [ht]
    · have hnext : (s.txi + 1).val = s.txi.val + 1 := Fin.val_add_one_of_lt' (by omega)
      exact {
        command_loaded := h.command_loaded
        read_request_mode := h.read_request_mode
        length_loaded := h.length_loaded
        length_early := h.length_early
        partly_sent := fun _ => hnext ▸ hwire
        wholly_sent := fun hw => by simp [hp] at hw
        sent_before_response := fun hr => by simp [hp] at hr
        usage_error_op := h.usage_error_op
        mismatch_op := h.mismatch_op }
    · have hwhole : requestFrame s <:+ s.txs ++ [s.txbuf[s.txi.val]] := by
        rwa [List.take_of_length_le (by simp [requestFrame, h6])] at hwire
      exact {
        command_loaded := fun _ => h.command_loaded (.inl hp)
        read_request_mode := fun _ => h.read_request_mode (.inl hp)
        length_loaded := fun _ => h.length_early hp hexp
        length_early := fun htx => by simp at htx
        partly_sent := fun htx => by simp at htx
        wholly_sent := fun _ => hwhole
        sent_before_response := fun hr => by simp at hr
        usage_error_op := h.usage_error_op
        mismatch_op := h.mismatch_op }
    · exact operationRecord_complete (by simp) (by simp)
  · rw [ht]
    exact h

/-! #### Receiving -/

/-- An update from `WAIT` or reception to reception that writes nothing of the record but `PHASE`. -/
theorem OperationRecord.receiving {s t : State} (h : OperationRecord s)
    (hp : s.phase = .wait ∨ s.phase = .hunt ∨ s.phase = .capture) (hp' : t.phase = .hunt ∨ t.phase = .capture)
    (hop : t.op = s.op) (hreq : t.reqMode = s.reqMode) (hmode : t.mode = s.mode) (hlen : t.len = s.len)
    (htxs : t.txs = s.txs) (hdone : t.done = s.done) (hst : t.status = s.status) : OperationRecord t := by
  have hframe : requestFrame t = requestFrame s := by simp only [requestFrame, hop, hreq]
  have hnotx : t.phase ≠ .tx := by rcases hp' with hp' | hp' <;> simp [hp']
  have hnowait : t.phase ≠ .wait := by rcases hp' with hp' | hp' <;> simp [hp']
  exact {
    command_loaded := fun hsend => absurd hsend (not_or.mpr ⟨hnotx, hnowait⟩)
    read_request_mode := fun hsend => absurd hsend (not_or.mpr ⟨hnotx, hnowait⟩)
    length_loaded := fun _ => by rw [hop, hlen]; exact h.length_loaded hp
    length_early := fun htx => absurd htx hnotx
    partly_sent := fun htx => absurd htx hnotx
    wholly_sent := fun hw => absurd hw hnowait
    sent_before_response := fun _ hr => by
      rw [hop, hmode] at hr
      rw [hframe, htxs]
      rcases hp with hw | hr'
      · exact h.wholly_sent hw
      · exact h.sent_before_response hr' hr
    usage_error_op := by rw [hdone, hst, hop]; exact h.usage_error_op
    mismatch_op := by rw [hdone, hst, hop]; exact h.mismatch_op }

theorem OperationRecord.waitDone {s : State} (h : OperationRecord s) : OperationRecord (waitDone s) := by
  rcases waitDone_cases s with ⟨hp, ht⟩ | ⟨_, ht⟩ <;> rw [ht]
  · exact h.receiving (.inl hp) (.inl rfl) rfl rfl rfl rfl rfl rfl rfl
  · exact h

/-- A full payload is never reported as UsageError. -/
theorem verdict_ne_usageError (s : State) : verdict s ≠ .usageError := by
  unfold verdict
  split <;> simp

theorem OperationRecord.rxByte {s : State} (h : OperationRecord s) (b : Byte) (ha : acceptsByte s = true) :
    OperationRecord (rxByte b s) := by
  have hrecv := acceptsByte_phase ha
  rcases rxByte_cases b s ha with ⟨_, _, _, ht⟩ | ⟨_, _, ht⟩ | ⟨_, _, ht⟩ | ⟨_, _, ht⟩ <;> rw [ht]
  · exact h.receiving (.inr hrecv) (.inr rfl) rfl rfl rfl rfl rfl rfl rfl
  · exact h.receiving (.inr hrecv) hrecv rfl rfl rfl rfl rfl rfl rfl
  · exact h.receiving (.inr hrecv) hrecv rfl rfl rfl rfl rfl rfl rfl
  · exact operationRecord_complete (verdict_ne_usageError _)
      fun _ => op_ne_wakeup_of_responseLen (h.length_loaded (.inr hrecv))

/-! #### The step -/

theorem OperationRecord.with_env {s : State} (h : OperationRecord s) (r : List Byte) (l : List Input) :
    OperationRecord { s with rx := r, inbox := l } :=
  ⟨h.command_loaded, h.read_request_mode, h.length_loaded, h.length_early, h.partly_sent, h.wholly_sent,
    h.sent_before_response, h.usage_error_op, h.mismatch_op⟩

theorem operationRecord_reset (s : State) : OperationRecord (reset s) :=
  operationRecord_of_idle rfl (fun _ => Status.noConfusion) fun _ => Status.noConfusion

theorem operationRecord_keptByEvents : KeptByEvents OperationRecord where
  env _ r l h := h.with_env r l
  hostStart op arg s _ _ := operationRecord_hostStart op arg s
  txAccept _ h := h.txAccept
  waitDone _ h := h.waitDone
  rxByte b _ ha h := h.rxByte b ha
  sensorError _ _ _ := operationRecord_complete (by simp) (by simp)
  reset := operationRecord_reset

/-- Settles O60: the record is inductive as it stands. A start makes it anew, `tx_accept` sends the next byte of the
request it names, and from `WAIT` on nothing of it is written. -/
theorem everyStepKeepsTheOperationRecord : Obligations.EveryStepKeepsTheOperationRecord := by
  unfold Obligations.EveryStepKeepsTheOperationRecord
  exact fun s t h hstep => operationRecord_keptByEvents.step hstep h

/-- Settles O59: the state after reset is its own reset. -/
theorem resetMeetsBothInvariants : Obligations.ResetMeetsBothInvariants := by
  unfold Obligations.ResetMeetsBothInvariants
  exact ⟨registerInv_reset State.reset, operationRecord_reset State.reset⟩

end Sys2Proof.Machine

namespace Sys2Proof.Machine

/-! ### What the checksum ranges over, detects and misses (42_checksum.md rules R146, R147) -/

/-- A sum of bytes is at most 255 times their number. -/
theorem sum_toNat_le (bs : List Byte) : (bs.map BitVec.toNat).sum ≤ 255 * bs.length := by
  have hle : ∀ x ∈ bs.map BitVec.toNat, x ≤ 255 := by
    intro x hx
    obtain ⟨b, _, rfl⟩ := List.mem_map.mp hx
    have := b.isLt
    omega
  simpa [Nat.mul_comm] using List.sum_le_card_nsmul _ 255 hle

/-- Rule R146: as long as the sum cannot wrap, it is at least that of the marker, and at most that of the marker and bytes
0xFF. -/
theorem csumRx_range {n : Nat} (p : Vector Byte n) (h : 143 + 255 * (n - 2) < 65536) :
    143 ≤ (csumRx p).toNat ∧ (csumRx p).toNat ≤ 143 + 255 * (n - 2) := by
  have hsum := sum_toNat_le (p.toList.take (n - 2))
  rw [List.length_take, Vector.length_toList, Nat.min_eq_left (Nat.sub_le n 2)] at hsum
  rw [toNat_csumRx]
  omega

/-- Settles O10: 28 summed bytes, 4 summed bytes, 3 summed bytes behind the marker. -/
theorem checksumRanges : Obligations.ChecksumRanges := by
  unfold Obligations.ChecksumRanges
  refine ⟨fun p => csumRx_range p (by decide), fun p => csumRx_range p (by decide), fun x y z => ?_⟩
  have h42 : (0x42 : Byte).toNat = 0x42 := rfl
  have h4D : (0x4D : Byte).toNat = 0x4D := rfl
  have hx := x.isLt
  have hy := y.isLt
  have hz := z.isLt
  rw [toNat_csumTx, h42, h4D]
  omega

/-- What a change of one byte does to the sum. -/
theorem byteSum_set (bs : List Byte) (i : Nat) (h : i < bs.length) (b : Byte) :
    byteSum (bs.set i b) + bs[i].setWidth 16 = byteSum bs + b.setWidth 16 := by
  induction bs generalizing i with
  | nil => simp at h
  | cons a as ih =>
    cases i with
    | zero =>
      simp only [List.set_cons_zero, List.getElem_cons_zero, byteSum]
      ac_rfl
    | succ i =>
      have htail := ih i (by simpa using h)
      simp only [List.set_cons_succ, List.getElem_cons_succ, byteSum]
      rw [BitVec.add_assoc, htail, BitVec.add_assoc]

/-- Zero-extension loses no bit. -/
theorem setWidth_byte_inj {a b : Byte} (h : a.setWidth 16 = b.setWidth 16) : a = b := by
  simpa [lo] using congrArg lo h

theorem word16_inj {h l h' l' : Byte} (heq : word16 h l = word16 h' l') : h = h' ∧ l = l' :=
  ⟨by simpa using congrArg hi heq, by simpa using congrArg lo heq⟩

/-- Rule R147 (c): the sum of the bytes before the checksum word changes with any one of them. -/
theorem byteSum_set_ne {bs : List Byte} {i : Nat} (h : i < bs.length) {b : Byte} (hb : b ≠ bs[i]) :
    byteSum (bs.set i b) ≠ byteSum bs := by
  intro heq
  have hset := byteSum_set bs i h b
  rw [heq] at hset
  exact hb (setWidth_byte_inj (add_left_cancel hset)).symm

/-- Rule R147 (d): an exchange of two bytes leaves the sum alone. -/
theorem byteSum_exchange (bs : List Byte) {i j : Nat} (hi : i < bs.length) (hj : j < bs.length) :
    byteSum ((bs.set i bs[j]).set j bs[i]) = byteSum bs := by
  have hfirst := byteSum_set bs i hi bs[j]
  have hsecond := byteSum_set (bs.set i bs[j]) j (by simpa using hj) bs[i]
  have hkept : (bs.set i bs[j])[j]'(by simpa using hj) = bs[j] := by
    rw [List.getElem_set]
    split <;> rfl
  rw [hkept] at hsecond
  exact add_right_cancel (hsecond.trans hfirst)

/-- A payload without bytes passes no check. -/
theorem one_le_of_check {n : Nat} {p : Vector Byte (2 * n)} (h : check p = true) : 1 ≤ n := by
  by_contra hn
  have hnil : (words p).toList = [] := List.eq_nil_of_length_eq_zero (by simp; omega)
  simp [check, hnil] at h

/-- A change of one byte of a payload that passes is detected. -/
theorem check_set_false {n : Nat} {p : Vector Byte (2 * n)} (hp : check p = true) {i : Nat} (hi : i < 2 * n) {b : Byte}
    (hb : b ≠ p[i]) : check (p.set i b) = false := by
  have hn := one_le_of_check hp
  have hword := (check_iff p hn).mp hp
  rw [Bool.eq_false_iff]
  intro hset
  have hword' := (check_iff (p.set i b) hn).mp hset
  by_cases hsummed : i < 2 * n - 2
  · -- a summed byte: the same checksum word, another sum
    have hne : csumRx (p.set i b) ≠ csumRx p := by
      rw [csumRx, csumRx, Vector.toList_set, List.take_set]
      intro heq
      refine byteSum_set_ne ?_ ?_ (add_left_cancel heq)
      · simp; omega
      · simpa using hb
    rw [Vector.getElem_set_ne _ _ (by omega), Vector.getElem_set_ne _ _ (by omega), hword] at hword'
    exact hne hword'.symm
  · -- a byte of the checksum word: the same sum, another word
    have heq : csumRx (p.set i b) = csumRx p := by
      rw [csumRx, csumRx, Vector.toList_set, List.take_set, List.set_eq_of_length_le (by simp; omega)]
    rw [heq, ← hword] at hword'
    obtain ⟨hhigh, hlow⟩ := word16_inj hword'
    rw [Vector.getElem_set] at hhigh hlow
    rcases (by omega : i = 2 * n - 2 ∨ i = 2 * n - 1) with rfl | rfl
    · exact hb (by simpa using hhigh)
    · exact hb (by simpa using hlow)

/-- An exchange of two summed bytes of a payload that passes is not detected. -/
theorem check_swap {n : Nat} {p : Vector Byte (2 * n)} (hp : check p = true) {i j : Nat} (hi : i < 2 * n - 2)
    (hj : j < 2 * n - 2) : check (p.swap i j) = true := by
  have hn := one_le_of_check hp
  have hsum : csumRx (p.swap i j) = csumRx p := by
    have hex := byteSum_exchange (p.toList.take (2 * n - 2)) (i := i) (j := j) (by simp; omega) (by simp; omega)
    simp only [List.getElem_take, Vector.getElem_toList] at hex
    rw [csumRx, csumRx, Vector.toList_swap, List.take_set, List.take_set, hex]
  rw [check_iff _ hn, hsum, Vector.getElem_swap_of_ne (by omega) (by omega),
    Vector.getElem_swap_of_ne (by omega) (by omega)]
  exact (check_iff p hn).mp hp

/-- Settles O11: a change alters the sum or the checksum word, but not both; an exchange alters neither. -/
theorem singleByteChangeIsDetectedAndExchangeIsNot : Obligations.SingleByteChangeIsDetectedAndExchangeIsNot := by
  unfold Obligations.SingleByteChangeIsDetectedAndExchangeIsNot
  exact fun n p hp => ⟨fun i hi b hb => check_set_false hp hi hb, fun i j hi hj => check_swap hp hi hj⟩

/-! ### The command frame (44_command_protocol.md rules R171, R184) -/

/-- Settles O12: the last two bytes are the checksum word, which is below 65536, so nothing of it is lost. -/
theorem commandFrameLayout : Obligations.CommandFrameLayout := by
  unfold Obligations.CommandFrameLayout
  intro opcode data
  let v := csumTx Config.mark0 Config.mark1 opcode (hi data) (lo data)
  refine ⟨hi v, lo v, rfl, toNat_hi data, toNat_lo data, ?_⟩
  have hmark : Config.mark0.toNat + Config.mark1.toNat = 143 := by decide
  have hop := opcode.isLt
  have hdata := data.isLt
  calc (hi v).toNat * 256 + (lo v).toNat = v.toNat := by rw [toNat_hi, toNat_lo]; omega
    _ = _ := by rw [toNat_csumTx, hmark, toNat_hi, toNat_lo]; omega

/-- Settles O31: the generic row writes nothing, and well-formed it carries the encoder's checksum. -/
theorem genericCommandIsEncodedOnly : Obligations.GenericCommandIsEncodedOnly := by
  unfold Obligations.GenericCommandIsEncodedOnly
  refine ⟨fun _ _ _ _ => rfl, fun opcode data checksum hwf => ?_⟩
  simp only [Instr.wellFormed, Bool.and_eq_true, beq_iff_eq] at hwf
  obtain ⟨rfl, _⟩ := hwf
  rfl

end Sys2Proof.Machine

namespace Sys2Proof.Machine

/-- A host word taken in `IDLE` starts the operation that its operands name. -/
theorem step_hostWord_idle {s : State} {h : HostWord} {rest : List Input} (hin : s.inbox = .instr (.host h) :: rest)
    (hp : s.phase = .idle) : step s = .next (hostStart (hostWordOp h) (hostWordArg h) { s with inbox := rest }) :=
  (step_hostWord hin).trans (whenIdle_idle (s := { s with inbox := rest }) hp)

/-! ### The host operations (45_session.md rules R200 to R205) -/

theorem hostStart_read_active {s : State} (hm : s.mode = .active) (arg : U16) :
    hostStart .read arg s = startReadActive (latch .read s) := by
  simp [hostStart, hm]

theorem hostStart_read_passive {s : State} (hm : s.mode = .passive) (arg : U16) :
    hostStart .read arg s = startReadPassive (latch .read s) := by
  simp [hostStart, hm]

/-- Settles O22: both READ rows are `host_start`, which finds `MODE` Active. -/
theorem readInActiveModeBeginsAHunt : Obligations.ReadInActiveModeBeginsAHunt := by
  unfold Obligations.ReadInActiveModeBeginsAHunt
  refine fun s arg hp hm => ⟨?_, rfl⟩
  calc exec (.readActive arg) s = .next (hostStart .read arg s) := whenIdle_idle hp
    _ = .next (startReadActive (latch .read s)) := congrArg Host.Outcome.next (hostStart_read_active hm arg)
    _ = _ := rfl

/-- Settles O23: both READ rows are `host_start`, which finds `MODE` Passive. -/
theorem readInPassiveModeLoadsItsRequest : Obligations.ReadInPassiveModeLoadsItsRequest := by
  unfold Obligations.ReadInPassiveModeLoadsItsRequest
  refine fun s arg hp hm => ⟨?_, rfl⟩
  calc exec (.readPassive arg) s = .next (hostStart .read arg s) := whenIdle_idle hp
    _ = .next (startReadPassive (latch .read s)) := congrArg Host.Outcome.next (hostStart_read_passive hm arg)
    _ = _ := rfl

/-- Settles O24: WAKEUP's start loads the pair (0xE4, 1), and no length. -/
theorem wakeupLoadsItsRequest : Obligations.WakeupLoadsItsRequest := by
  unfold Obligations.WakeupLoadsItsRequest
  intro s arg hp
  calc exec (.wakeupOp arg) s = .next (hostStart .wakeup arg s) := whenIdle_idle hp
    _ = _ := rfl

/-- Settles O25: SLEEP's start loads the pair (0xE4, 0) and the length of an acknowledgement. -/
theorem sleepLoadsItsRequest : Obligations.SleepLoadsItsRequest := by
  unfold Obligations.SleepLoadsItsRequest
  intro s arg hp
  calc exec (.sleepOp arg) s = .next (hostStart .sleep arg s) := whenIdle_idle hp
    _ = _ := rfl

/-- Settles O26: the rows of the arguments 0 and 1 are `host_start` with that argument, and so is the illegal row when it
is given one of them. -/
theorem setModeLoadsItsRequest : Obligations.SetModeLoadsItsRequest := by
  unfold Obligations.SetModeLoadsItsRequest
  refine fun s hp => ⟨?_, ?_, rfl, rfl⟩
  · calc exec .setModeOpPassive s = .next (hostStart .setMode 0 s) := whenIdle_idle hp
      _ = _ := rfl
  · calc exec .setModeOpActive s = .next (hostStart .setMode 1 s) := whenIdle_idle hp
      _ = _ := rfl

end Sys2Proof.Machine

namespace Sys2Proof.Machine

/-! ### Sending a request (44_command_protocol.md rules R178, R179) -/

/-- Rule R178: before the last byte `tx_accept` sends the byte at `TXI` and goes on. -/
theorem txAccept_of_lt {s : State} (hp : s.phase = .tx) (h : s.txi.val < 6) :
    txAccept s = sendByte s.txbuf[s.txi.val] s := by
  simp [txAccept, txData, hp, h, show s.txi.val < 7 by omega]

/-- Rule R179: the last byte leads to the wait or ends the operation. -/
theorem txAccept_last {s : State} (hp : s.phase = .tx) (h : s.txi = 6) :
    txAccept s = if s.expect then { s with txs := s.txs ++ [s.txbuf[6]], txi := 7, phase := .wait }
      else complete .ok { s with txs := s.txs ++ [s.txbuf[6]], txi := 7 } := by
  simp [txAccept, txData, hp, h, sendByte]

/-- After `n` acceptances the first `n` bytes of TXBUF have left, in index order. -/
theorem acceptBytes_partly {s : State} (hp : s.phase = .tx) (hi : s.txi = 0) :
    ∀ (n : Nat) (i : Fin 8), n ≤ 6 → i.val = n →
      acceptBytes n s = { s with txi := i, txs := s.txs ++ s.txbuf.toList.take n } := by
  intro n
  induction n with
  | zero =>
    intro i _ hin
    have hi' : i = s.txi := hi ▸ Fin.val_eq_zero_iff.mp hin
    simp [acceptBytes, hi']
  | succ n ih =>
    intro i hn hin
    have hlt : n < 8 := by omega
    have hnext : (⟨n, hlt⟩ : Fin 8) + 1 = i := Fin.ext ((Fin.val_add_one_of_lt' (by simp; omega)).trans hin.symm)
    have htake : s.txbuf.toList.take (n + 1) = s.txbuf.toList.take n ++ [s.txbuf[n]] := by
      rw [List.take_succ_eq_append_getElem (by simp; omega), Vector.getElem_toList]
    rw [acceptBytes_succ, ih ⟨n, hlt⟩ (by omega) rfl, ← hnext, htake, ← List.append_assoc]
    exact txAccept_of_lt (s := { s with txi := ⟨n, hlt⟩, txs := s.txs ++ s.txbuf.toList.take n }) hp hn

/-- The whole request: all seven bytes have left. -/
theorem acceptBytes_request {s : State} (hp : s.phase = .tx) (hi : s.txi = 0) :
    acceptBytes 7 s =
      if s.expect then { s with txi := 7, txs := s.txs ++ s.txbuf.toList, phase := .wait }
      else complete .ok { s with txi := 7, txs := s.txs ++ s.txbuf.toList } := by
  have htake : s.txbuf.toList = s.txbuf.toList.take 6 ++ [s.txbuf[6]] := by
    conv_lhs => rw [← List.take_of_length_le (l := s.txbuf.toList) (i := 6 + 1) (by simp)]
    rw [List.take_succ_eq_append_getElem (by simp), Vector.getElem_toList]
  rw [acceptBytes_succ, acceptBytes_partly hp hi 6 6 le_rfl rfl,
    txAccept_last (s := { s with txi := 6, txs := s.txs ++ s.txbuf.toList.take 6 }) hp rfl]
  simp only [List.append_assoc, ← htake]

/-- Settles O33: by induction on the number of acceptances, and the seventh by itself. -/
theorem requestIsSentInOrder : Obligations.RequestIsSentInOrder := by
  unfold Obligations.RequestIsSentInOrder
  exact fun s hp hi => ⟨acceptBytes_partly hp hi, acceptBytes_request hp hi⟩

/-- Settles O34: the step is the last `tx_accept`, on both values of `EXPECT`. -/
theorem lastRequestByteWaitsOrCompletes : Obligations.LastRequestByteWaitsOrCompletes := by
  unfold Obligations.LastRequestByteWaitsOrCompletes
  intro s rest hp hi hin
  have hstep : step s = .next (txAccept { s with inbox := rest }) := step_cons hin
  rw [txAccept_last (s := { s with inbox := rest }) hp hi] at hstep
  refine ⟨fun hexp => hstep.trans ?_, fun hexp => hstep.trans ?_, fun hexp => ⟨_, hstep, ?_⟩⟩
  · exact congrArg Host.Outcome.next (if_pos hexp)
  · exact congrArg Host.Outcome.next (if_neg (by simp [hexp]))
  · rw [if_neg (by simp [hexp])]
    exact ⟨rfl, rfl, rfl⟩

end Sys2Proof.Machine

namespace Sys2Proof.Machine

/-! ### The wire commands (44_command_protocol.md rules R173 to R177) -/

/-- A start that loads a request which expects a response: the request goes out and the block waits. -/
theorem sendRequest_expecting {op : HostOp} {arg : U16} {s u : State} {opcode : Byte} {data : U16} {l : RespLen}
    (h : hostStart op arg s = loadCmd opcode data (some l) u) :
    sendRequest op arg s = { loadCmd opcode data (some l) u with
      txi := 7, txs := u.txs ++ (encodeCommand opcode data).toList, phase := .wait } := by
  rw [sendRequest, h]
  exact (acceptBytes_request rfl rfl).trans (if_pos rfl)

/-- A start that loads a request which expects none: the request goes out and the operation is complete. -/
theorem sendRequest_completing {op : HostOp} {arg : U16} {s u : State} {opcode : Byte} {data : U16}
    (h : hostStart op arg s = loadCmd opcode data none u) :
    sendRequest op arg s = complete .ok { loadCmd opcode data none u with
      txi := 7, txs := u.txs ++ (encodeCommand opcode data).toList } := by
  rw [sendRequest, h]
  exact (acceptBytes_request rfl rfl).trans (if_neg Bool.false_ne_true)

/-- Settles O29: WAKEUP's request goes out and its operation is complete. -/
theorem wakeupCommandCompletes : Obligations.WakeupCommandCompletes := by
  unfold Obligations.WakeupCommandCompletes
  intro s hp
  calc exec .wakeup s = .next (sendRequest .wakeup 0 s) := whenIdle_idle hp
    _ = _ := congrArg Host.Outcome.next (sendRequest_completing rfl)
    _ = _ := rfl

/-- Settles O30: the four requests that expect a response go out and wait, PASSIVE_READ's in Passive mode only. -/
theorem awaitedCommandsGoOutAndWait : Obligations.AwaitedCommandsGoOutAndWait := by
  unfold Obligations.AwaitedCommandsGoOutAndWait
  refine fun s hp => ⟨?_, ?_, ?_, fun hm => ?_, fun hm => ?_⟩
  · calc exec .sleep s = .next (sendRequest .sleep 0 s) := whenIdle_idle hp
      _ = _ := congrArg Host.Outcome.next (sendRequest_expecting rfl)
      _ = _ := rfl
  · calc exec .setModeActive s = .next (sendRequest .setMode 1 s) := whenIdle_idle hp
      _ = _ := congrArg Host.Outcome.next (sendRequest_expecting rfl)
      _ = _ := rfl
  · calc exec .setModePassive s = .next (sendRequest .setMode 0 s) := whenIdle_idle hp
      _ = _ := congrArg Host.Outcome.next (sendRequest_expecting rfl)
      _ = _ := rfl
  · calc exec .passiveRead s = .next (sendPassiveRead s) := whenIdle_idle hp
      _ = .next (sendRequest .read 0 s) := by rw [sendPassiveRead, hm]
      _ = _ := congrArg Host.Outcome.next (sendRequest_expecting (hostStart_read_passive hm 0))
      _ = _ := rfl
  · calc exec .passiveRead s = .next (sendPassiveRead s) := whenIdle_idle hp
      _ = .next s := by rw [sendPassiveRead, hm]

/-! #### The same run, event by event -/

/-- What is still offered plays no part in a start. -/
theorem hostStart_inbox (op : HostOp) (arg : U16) (s : State) (l : List Input) :
    hostStart op arg { s with inbox := l } = { hostStart op arg s with inbox := l } := by
  cases op with
  | read =>
    rcases s with ⟨mode⟩
    cases mode <;> rfl
  | wakeup => rfl
  | sleep => rfl
  | setMode =>
    simp only [hostStart]
    split <;> rfl

theorem txAccept_with_inbox (s : State) (l : List Input) :
    txAccept { s with inbox := l } = { txAccept s with inbox := l } := by
  have hrx : (txAccept s).rx = s.rx := by
    rcases txAccept_cases s with ⟨_, _, ⟨_, ht⟩ | ⟨_, _, ht⟩ | ⟨_, _, ht⟩⟩ | ⟨_, ht⟩ <;> rw [ht] <;> rfl
  calc txAccept { s with inbox := l } = { txAccept s with rx := s.rx, inbox := l } := txAccept_env s s.rx l
    _ = { txAccept s with inbox := l } := by rw [← hrx]

theorem txAccept_inbox (s : State) : (txAccept s).inbox = s.inbox := by
  rcases txAccept_cases s with ⟨_, _, ⟨_, ht⟩ | ⟨_, _, ht⟩ | ⟨_, _, ht⟩⟩ | ⟨_, ht⟩ <;> rw [ht] <;> rfl

/-- `n` offers of acceptance are the transport's acceptance of `n` bytes. -/
theorem runSteps_txAccept (n : Nat) {s : State} {l : List Input} (h : s.inbox = List.replicate n .txAccept ++ l) :
    runSteps n s = .next (acceptBytes n { s with inbox := l }) := by
  induction n generalizing s with
  | zero =>
    obtain rfl : s.inbox = l := h
    rfl
  | succ n ih =>
    let u : State := { s with inbox := List.replicate n .txAccept ++ l }
    have hstep : step s = .next (txAccept u) := step_cons h
    have henv : { txAccept u with inbox := l } = txAccept { u with inbox := l } :=
      (txAccept_with_inbox u l).symm
    rw [runSteps, hstep]
    exact (ih (txAccept_inbox u)).trans (by rw [henv]; rfl)

/-- A host word and seven offers of acceptance are the start of its operation and the sending of its request. -/
theorem runSteps_sendRequest (op : HostOp) (arg : U16) {s : State} (hp : s.phase = .idle) :
    runSteps 8 { s with inbox := .instr (.host (hostWord op arg)) :: (List.replicate 7 Input.txAccept ++ s.inbox) }
      = .next (sendRequest op arg s) := by
  let l := List.replicate 7 Input.txAccept ++ s.inbox
  have hstart : step { s with inbox := .instr (.host (hostWord op arg)) :: l }
      = .next { hostStart op arg s with inbox := l } := by
    have hword := step_hostWord_idle (s := { s with inbox := .instr (.host (hostWord op arg)) :: l }) rfl hp
    rw [hostWordOp_hostWord, hostWordArg_hostWord] at hword
    exact hword.trans (congrArg Host.Outcome.next (hostStart_inbox op arg s l))
  have hs : { hostStart op arg s with inbox := s.inbox } = hostStart op arg s := (hostStart_inbox op arg s s.inbox).symm
  calc runSteps 8 { s with inbox := .instr (.host (hostWord op arg)) :: l }
      = runSteps 7 { hostStart op arg s with inbox := l } := by rw [runSteps, hstart]
    _ = .next (acceptBytes 7 { hostStart op arg s with inbox := s.inbox }) := runSteps_txAccept 7 rfl
    _ = .next (sendRequest op arg s) := by rw [hs]; rfl

/-- Settles O32: each wire command is the run of the host word that names its operation. -/
theorem wireCommandIsTheRunOfItsOperation : Obligations.WireCommandIsTheRunOfItsOperation := by
  unfold Obligations.WireCommandIsTheRunOfItsOperation
  intro s hp
  refine ⟨?_, ?_, ?_, ?_, fun hm => ?_⟩
  · exact (runSteps_sendRequest .wakeup 0 hp).trans (whenIdle_idle hp).symm
  · exact (runSteps_sendRequest .sleep 0 hp).trans (whenIdle_idle hp).symm
  · exact (runSteps_sendRequest .setMode 1 hp).trans (whenIdle_idle hp).symm
  · exact (runSteps_sendRequest .setMode 0 hp).trans (whenIdle_idle hp).symm
  · calc _ = .next (sendRequest .read 0 s) := runSteps_sendRequest .read 0 hp
      _ = .next (sendPassiveRead s) := by rw [sendPassiveRead, hm]
      _ = exec .passiveRead s := (whenIdle_idle hp).symm

end Sys2Proof.Machine

namespace Sys2Proof.Machine

/-! ### The step (10_state.md rules R40, R41) -/

theorem step_decoded {s : State} {w : Encoded} {rest : List Input} {i : Instr} (hin : s.inbox = .instr w :: rest)
    (h : decode s.mode w = .ok i) : step s = exec i { s with inbox := rest } := by
  rw [step_cons hin]
  simp [take, runWord, h]

theorem step_rejected {s : State} {w : Encoded} {rest : List Input} {e : DecodeError} (hin : s.inbox = .instr w :: rest)
    (h : decode s.mode w = .rejected e) : step s = .refused (.undecodable e) := by
  rw [step_cons hin]
  simp [take, runWord, h]

/-- Settles O15: a step takes the word at the head of the inbox, and `withFetchWord` puts one there. -/
theorem stepRunsTheDecodedInstruction : Obligations.StepRunsTheDecodedInstruction := by
  unfold Obligations.StepRunsTheDecodedInstruction
  refine ⟨fun s w rest hin => ⟨fun i h => step_decoded hin h, fun e h => step_rejected hin h⟩, fun s nbits n i h => ?_⟩
  exact step_decoded (s := s.withFetchWord nbits n) rfl h

/-- Settles O16: each event is taken off the inbox and met by its own operation. -/
theorem stepTakesTheOfferedEvent : Obligations.StepTakesTheOfferedEvent := by
  unfold Obligations.StepTakesTheOfferedEvent
  intro s rest
  refine ⟨fun hin => ?_, step_cons, step_cons, step_cons, step_cons, fun hin hrx => ?_, fun b => step_cons,
    fun b bs hin hrx ha => ?_⟩
  · simp [step, hin]
  · exact (step_cons hin).trans (congrArg Host.Outcome.next (by simp [takeRxTimeout, hrx]))
  · exact (step_cons hin).trans (congrArg Host.Outcome.next (takeRxByte_cons hrx ha))

/-! #### An event without a step -/

theorem txAccept_of_phase_ne {s : State} (h : s.phase ≠ .tx) : txAccept s = s := by
  rcases txAccept_cases s with ⟨hp, _⟩ | ⟨_, ht⟩
  · exact absurd hp h
  · exact ht

theorem waitDone_of_phase_ne {s : State} (h : s.phase ≠ .wait) : waitDone s = s := by
  rcases waitDone_cases s with ⟨hp, _⟩ | ⟨_, ht⟩
  · exact absurd hp h
  · exact ht

theorem takeRxByte_refused {s : State} (h : s.rx = [] ∨ acceptsByte s = false) : takeRxByte s = s := by
  rcases takeRxByte_cases s with ⟨b, bs, hrx, ha, _⟩ | ⟨_, ht⟩
  · simp [hrx, ha] at h
  · exact ht

/-- Where the block receives nothing, the byte stays in the transport (rule R41). -/
theorem takeRxByte_of_phase_ne {s : State} (h : ¬ (s.phase = .hunt ∨ s.phase = .capture)) : takeRxByte s = s := by
  cases ha : acceptsByte s with
  | true => exact absurd (acceptsByte_phase ha) h
  | false => exact takeRxByte_refused (.inr ha)

/-- A timeout offered with bytes queued is no offer (rule R54). -/
theorem takeRxTimeout_of_queued {s : State} (h : s.rx ≠ []) : takeRxTimeout s = s := by
  rcases takeRxTimeout_cases s with ⟨hrx, _⟩ | ⟨_, ht⟩
  · exact absurd hrx h
  · exact ht

theorem takeRxTimeout_of_phase_ne {s : State} (h : ¬ (s.phase = .hunt ∨ s.phase = .capture)) : takeRxTimeout s = s := by
  rcases takeRxTimeout_cases s with ⟨_, hp, _⟩ | ⟨_, ht⟩
  · exact absurd hp h
  · exact ht

theorem ioFault_of_phase_ne {s : State} (h : ¬ (s.phase = .tx ∨ s.phase = .hunt ∨ s.phase = .capture)) : ioFault s = s := by
  rcases ioFault_cases s with ⟨hp, _⟩ | ⟨_, ht⟩
  · exact absurd hp h
  · exact ht

/-- Settles O17: event by event, in the phases where rule R41's table has no entry for it; the other two offers meet a
queue that has bytes, or none. -/
theorem eventWithoutAStepChangesNothing : Obligations.EventWithoutAStepChangesNothing := by
  unfold Obligations.EventWithoutAStepChangesNothing
  intro s e rest hin hblock hnotHost hno
  let u : State := { s with inbox := rest }
  refine (step_cons hin).trans ?_
  cases e with
  | instr w =>
    cases w with
    | host h => exact absurd rfl (hnotHost h)
    | frame f => exact absurd hblock (by simp [isBlockEvent])
  | txAccept => exact congrArg Host.Outcome.next (txAccept_of_phase_ne (s := u) (by simpa [hasStep] using hno))
  | waitDone => exact congrArg Host.Outcome.next (waitDone_of_phase_ne (s := u) (by simpa [hasStep] using hno))
  | rxByte =>
    refine congrArg Host.Outcome.next ?_
    by_cases hrx : s.rx = []
    · exact takeRxByte_refused (s := u) (.inl hrx)
    · exact takeRxByte_of_phase_ne (s := u) (by simpa [hasStep, hrx] using hno)
  | rxTimeout =>
    refine congrArg Host.Outcome.next ?_
    by_cases hrx : s.rx = []
    · exact takeRxTimeout_of_phase_ne (s := u) (by simpa [hasStep, hrx] using hno)
    · exact takeRxTimeout_of_queued (s := u) hrx
  | ioFault => exact congrArg Host.Outcome.next (ioFault_of_phase_ne (s := u) (by simpa [hasStep, and_assoc] using hno))
  | reset => exact absurd hblock (by simp [isBlockEvent])
  | sensorByte b => exact absurd hblock (by simp [isBlockEvent])

/-- Settles O35: `wait_done` begins the hunt, and no other event has an entry for `WAIT` in rule R41's table. -/
theorem waitEndsOnlyOnWaitDone : Obligations.WaitEndsOnlyOnWaitDone := by
  unfold Obligations.WaitEndsOnlyOnWaitDone
  intro s e rest hp hin hblock
  refine ⟨?_, fun hne hnotHost => ?_⟩
  · rintro rfl
    exact (step_cons hin).trans (congrArg Host.Outcome.next (by simp [waitDone, hp, enterHunt]))
  · refine eventWithoutAStepChangesNothing s e rest hin hblock hnotHost (.inl ?_)
    rw [hp]
    cases e with
    | instr w =>
      cases w with
      | host h => exact absurd rfl (hnotHost h)
      | frame f => rfl
    | waitDone => exact absurd rfl hne
    | reset => exact absurd hblock (by simp [isBlockEvent])
    | _ => rfl

/-- Settles O54: in `IDLE` no event but these has an entry in rule R41's table, and a byte from the sensor joins RX. -/
theorem resultsPersistWhileIdle : Obligations.ResultsPersistWhileIdle := by
  unfold Obligations.ResultsPersistWhileIdle
  intro s t e rest hp hin hstep hreset hinstr
  have same (hno : step s = .next { s with inbox := rest }) :
      t.phase = .idle ∧ t.done = s.done ∧ t.status = s.status ∧ t.mode = s.mode ∧ t.rvalid = s.rvalid
        ∧ t.reading = s.reading := by
    obtain rfl := Host.Outcome.next.inj (hno.symm.trans hstep)
    exact ⟨hp, rfl, rfl, rfl, rfl, rfl⟩
  have noStep (hblock : isBlockEvent e = true) (htable : hasStep .idle e = false) :=
    same (eventWithoutAStepChangesNothing s e rest hin hblock (fun h => hinstr (.host h)) (.inl (hp ▸ htable)))
  cases e with
  | instr w => exact absurd rfl (hinstr w)
  | reset => exact absurd rfl hreset
  | sensorByte b =>
    obtain rfl := Host.Outcome.next.inj ((step_cons hin).symm.trans hstep)
    exact ⟨hp, rfl, rfl, rfl, rfl, rfl⟩
  | txAccept => exact noStep rfl rfl
  | waitDone => exact noStep rfl rfl
  | rxByte => exact noStep rfl rfl
  | rxTimeout => exact noStep rfl rfl
  | ioFault => exact noStep rfl rfl

/-! #### What stops a run -/

/-- Settles O19: every start exists in `IDLE` only, and the generic row has no effect anywhere. -/
theorem busyBlockRefusesEveryStart : Obligations.BusyBlockRefusesEveryStart := by
  unfold Obligations.BusyBlockRefusesEveryStart
  intro s arg opcode data checksum hp
  exact ⟨whenIdle_busy hp, whenIdle_busy hp, whenIdle_busy hp, whenIdle_busy hp, whenIdle_busy hp, whenIdle_busy hp,
    whenIdle_busy hp, whenIdle_busy hp, whenIdle_busy hp, whenIdle_busy hp, whenIdle_busy hp, whenIdle_busy hp, rfl⟩

/-- In `IDLE` every instruction answers. -/
theorem exec_idle (i : Instr) {s : State} (hp : s.phase = .idle) : ∃ t, exec i s = .next t := by
  cases i with
  | cmdGeneric o d c => exact ⟨s, rfl⟩
  | readingFrame p => exact ⟨_, rfl⟩
  | ackFrame p => exact ⟨_, rfl⟩
  | _ => exact ⟨_, whenIdle_idle hp⟩

/-- A frame row answers, or it is one of the five commands, offered to a busy block. -/
theorem exec_frame_stops {i : Instr} {bs : List Byte} (henc : encode i = .frame bs) (s : State) :
    (∃ t, exec i s = .next t)
    ∨ (s.phase ≠ .idle ∧ i ∈ [Instr.wakeup, .sleep, .setModeActive, .setModePassive, .passiveRead]
      ∧ exec i s = .refused .commandWhileBusy) := by
  by_cases hp : s.phase = .idle
  · exact .inl (exec_idle i hp)
  cases i with
  | wakeup => exact .inr ⟨hp, by simp, whenIdle_busy hp⟩
  | sleep => exact .inr ⟨hp, by simp, whenIdle_busy hp⟩
  | setModeActive => exact .inr ⟨hp, by simp, whenIdle_busy hp⟩
  | setModePassive => exact .inr ⟨hp, by simp, whenIdle_busy hp⟩
  | passiveRead => exact .inr ⟨hp, by simp, whenIdle_busy hp⟩
  | cmdGeneric o d c => exact .inl ⟨s, rfl⟩
  | readingFrame p => exact .inl ⟨_, rfl⟩
  | ackFrame p => exact .inl ⟨_, rfl⟩
  | _ => exact Encoded.noConfusion henc

/-- Settles O18: a host word stops on a busy block alone, a frame if it is not decoded or is a command that meets a busy
block, and an event never. -/
theorem onlyBusyStartsAndUndecodableFramesStop : Obligations.OnlyBusyStartsAndUndecodableFramesStop := by
  unfold Obligations.OnlyBusyStartsAndUndecodableFramesStop
  refine ⟨fun i s hp => exec_idle i hp, fun s => ?_⟩
  cases hin : s.inbox with
  | nil => exact .inl ⟨s, by simp [step, hin]⟩
  | cons e rest =>
    cases e with
    | instr w =>
      cases w with
      | host h =>
        by_cases hp : s.phase = .idle
        · exact .inl ⟨_, step_hostWord_idle hin hp⟩
        · exact .inr (.inl ⟨h, rest, rfl, hp, (step_hostWord hin).trans (whenIdle_busy hp)⟩)
      | frame f =>
        cases hdec : decode s.mode (.frame f) with
        | ok i =>
          rcases exec_frame_stops (encode_of_decode hdec) { s with inbox := rest } with ⟨t, hx⟩ | ⟨hp, hmem, hx⟩
          · exact .inl ⟨t, (step_decoded hin hdec).trans hx⟩
          · exact .inr (.inr (.inl ⟨f, rest, i, rfl, hp, hdec, hmem, (step_decoded hin hdec).trans hx⟩))
        | rejected e => exact .inr (.inr (.inr ⟨f, rest, e, rfl, hdec, step_rejected hin hdec⟩))
    | _ => exact .inl ⟨_, step_cons hin⟩

/-! #### Reset, and the outputs -/

/-- Settles O20: the fields as they stand in `State.reset`, and the outputs evaluated on them. -/
theorem resetStateValues : Obligations.ResetStateValues := by
  unfold Obligations.ResetStateValues
  exact ⟨rfl, rfl, rfl, rfl, rfl⟩

/-- Settles O21: `reset` has no condition on the phase. -/
theorem resetEventClearsTheBlockOnly : Obligations.ResetEventClearsTheBlockOnly := by
  unfold Obligations.ResetEventClearsTheBlockOnly
  exact fun s rest hin => step_cons hin

/-- Settles O53: each output by the values of the one register it depends on. -/
theorem outputsAreFunctionsOfTheRegisters : Obligations.OutputsAreFunctionsOfTheRegisters := by
  unfold Obligations.OutputsAreFunctionsOfTheRegisters
  refine ⟨fun s => ⟨?_, ?_, ?_, ?_, fun h => ?_, rfl, ?_, fun h => ?_, fun h => ?_, ?_, ?_, ?_, ?_, ?_⟩,
    fun op arg => ⟨hostWordOp_hostWord op arg, hostWordArg_hostWord op arg⟩, by decide, by decide⟩
  · cases hp : s.phase <;> simp [busy, phaseCode, hp]
  · cases hp : s.phase <;> simp [txValid, phaseCode, hp]
  · cases hp : s.phase <;> simp [waiting, phaseCode, hp]
  · cases hp : s.phase <;> simp [rxReady, phaseCode, hp]
  · simp [txData, h]
  · simp [modeOut]
  · simp [readingOut, h]
  · simp [readingOut, h]
  · cases hst : s.status <;> simp [statusOut, statusCode, hst]
  · cases hst : s.status <;> simp [statusOut, statusCode, hst]
  · cases hst : s.status <;> simp [statusOut, statusCode, hst]
  · cases hst : s.status <;> simp [statusOut, statusCode, hst]
  · cases s.len <;> rfl

end Sys2Proof.Machine

namespace Sys2Proof.Machine

/-! ### The synchronizer's single steps (40_frame_sync.md rules R112 to R118) -/

/-- The start of `CAPTURE`, where the marker is complete (rule R112). -/
def enterCapture (s : State) : State := { s with phase := .capture, cnt := 0, prev42 := false }

/-- Rule R112 for the byte that completes the marker. -/
theorem rxByte_marker {s : State} {b : Byte} (hp : s.phase = .hunt) (hprev : s.prev42 = true) (hb : b = Config.mark1) :
    rxByte b s = enterCapture s := by
  simp [rxByte, hp, huntStep, hprev, hb, enterCapture]

/-- Rule R112 for every other byte. -/
theorem rxByte_no_marker {s : State} {b : Byte} (hp : s.phase = .hunt) (h : ¬ (s.prev42 = true ∧ b = Config.mark1)) :
    rxByte b s = { s with prev42 := b == Config.mark0 } := by
  simp only [rxByte, hp, huntStep, if_neg h]

/-- Rule R114. -/
theorem rxByte_store {s : State} (b : Byte) (hp : s.phase = .capture) (h : s.cnt.val + 1 < lenBytes s.len) :
    rxByte b s = storeByte b s := by
  simp [rxByte, hp, captureStep, h]

/-- Rule R115. -/
theorem rxByte_last {s : State} (b : Byte) (hp : s.phase = .capture) (h : s.cnt.val + 1 = lenBytes s.len) :
    rxByte b s = complete (verdict (storeByte b s)) (storeByte b s) := by
  simp [rxByte, hp, captureStep, h]

theorem acceptsByte_hunt {s : State} (hp : s.phase = .hunt) : acceptsByte s = true := by
  simp [acceptsByte, hp]

theorem acceptsByte_capture {s : State} (hp : s.phase = .capture) (h : s.cnt.val + 1 ≤ lenBytes s.len) :
    acceptsByte s = true := by
  simp [acceptsByte, hp, h]

theorem acceptsByte_of_not_receiving {s : State} (h : s.phase = .idle ∨ s.phase = .tx ∨ s.phase = .wait) :
    acceptsByte s = false := by
  rcases h with hp | hp | hp <;> simp [acceptsByte, hp]

/-- A step on an offered byte that the block accepts. -/
theorem step_rxByte {s : State} {b : Byte} {bs : List Byte} {rest : List Input} (hin : s.inbox = .rxByte :: rest)
    (hrx : s.rx = b :: bs) (ha : acceptsByte s = true) : step s = .next (rxByte b { s with rx := bs, inbox := rest }) :=
  (step_cons hin).trans (congrArg Host.Outcome.next (takeRxByte_cons (s := { s with inbox := rest }) hrx ha))

/-- Settles O36: the two branches of rule R112's step. -/
theorem huntMatchesTheLastTwoBytes : Obligations.HuntMatchesTheLastTwoBytes := by
  unfold Obligations.HuntMatchesTheLastTwoBytes
  intro s b bs rest hp hin hrx
  have hstep := step_rxByte hin hrx (acceptsByte_hunt hp)
  exact ⟨fun hprev hb => hstep.trans (congrArg Host.Outcome.next (rxByte_marker hp hprev hb)),
    fun h => hstep.trans (congrArg Host.Outcome.next (rxByte_no_marker hp h))⟩

/-- Settles O41: a timeout in `HUNT` and a fault in `TX` end the operation as SensorError, which writes nothing else. -/
theorem huntTimeoutAndSendFaultAreSensorErrors : Obligations.HuntTimeoutAndSendFaultAreSensorErrors := by
  unfold Obligations.HuntTimeoutAndSendFaultAreSensorErrors
  refine fun s rest => ⟨fun hp hin hrx => ?_, fun hp hin => ?_⟩
  · calc step s = .next (takeRxTimeout { s with inbox := rest }) := step_cons hin
      _ = .next (complete .sensorError { s with inbox := rest }) :=
        congrArg Host.Outcome.next (takeRxTimeout_receiving (.inl hp) hrx)
      _ = _ := congrArg Host.Outcome.next (complete_error (by decide) _)
  · calc step s = .next (ioFault { s with inbox := rest }) := step_cons hin
      _ = .next (complete .sensorError { s with inbox := rest }) := congrArg Host.Outcome.next (ioFault_transfer (.inl hp))
      _ = _ := congrArg Host.Outcome.next (complete_error (by decide) _)

/-- Settles O38: the step is the store of the byte and the end of the operation on its verdict. -/
theorem lastPayloadByteValidates : Obligations.LastPayloadByteValidates := by
  unfold Obligations.LastPayloadByteValidates
  intro s b bs rest hp hin hrx hlast
  have hcnt : s.cnt.val < 30 := by
    have := lenBytes_le s.len
    omega
  let u : State := storeByte b { s with rx := bs, inbox := rest }
  have hstep : step s = .next (complete (verdict u) u) :=
    (step_rxByte hin hrx (acceptsByte_capture hp hlast.le)).trans
      (congrArg Host.Outcome.next (rxByte_last (s := { s with rx := bs, inbox := rest }) b hp hlast))
  refine ⟨_, hstep, rfl, rfl, (storeByte_cnt_val b hcnt).trans hlast, rfl, rfl, memRead8_storeByte b hcnt, rfl, ?_, ?_, ?_,
    rfl⟩
  · simp only [complete_mode, verdict_ok]; rfl
  · simp only [complete_reading, verdict_ok]; rfl
  · simp only [complete_rvalid, verdict_ok]; rfl

/-! ### Capturing a run of bytes -/

/-- The bytes of a list stored one after the other from `CNT` on. -/
def storeBytes (bs : List Byte) (s : State) : State := bs.foldl (fun u b => storeByte b u) s

@[simp] theorem storeBytes_nil (s : State) : storeBytes [] s = s := rfl
@[simp] theorem storeBytes_cons (b : Byte) (bs : List Byte) (s : State) :
    storeBytes (b :: bs) s = storeBytes bs (storeByte b s) := rfl

/-- Only BUF and `CNT` are written. -/
theorem storeBytes_eq (bs : List Byte) (s : State) :
    storeBytes bs s = { s with buf := (storeBytes bs s).buf, cnt := (storeBytes bs s).cnt } := by
  induction bs generalizing s with
  | nil => rfl
  | cons b bs ih => exact ih (storeByte b s)

theorem storeBytes_cnt_val (bs : List Byte) {s : State} (h : s.cnt.val + bs.length ≤ 30) :
    (storeBytes bs s).cnt.val = s.cnt.val + bs.length := by
  induction bs generalizing s with
  | nil => rfl
  | cons b bs ih =>
    rw [List.length_cons] at h
    have hcnt := storeByte_cnt_val b (s := s) (by omega)
    rw [storeBytes_cons, ih (by omega), hcnt, List.length_cons]
    omega

/-- The bytes stand in BUF where `CNT` was, in order, and every other cell is as before. -/
theorem storeBytes_buf (bs : List Byte) {s : State} (h : s.cnt.val + bs.length ≤ 30) :
    (storeBytes bs s).buf.toList = s.buf.toList.take s.cnt.val ++ bs ++ s.buf.toList.drop (s.cnt.val + bs.length) := by
  induction bs generalizing s with
  | nil => simp
  | cons b bs ih =>
    rw [List.length_cons] at h
    have hcnt := storeByte_cnt_val b (s := s) (by omega)
    have htake : (s.buf.toList.set s.cnt.val b).take (s.cnt.val + 1) = s.buf.toList.take s.cnt.val ++ [b] := by
      rw [List.take_succ_eq_append_getElem (by simp; omega), List.take_set_of_le (le_refl _), List.getElem_set_self]
    rw [storeBytes_cons, ih (by omega), hcnt, storeByte_buf, Vector.toList_setIfInBounds, htake,
      List.drop_set_of_lt (by omega), List.length_cons]
    simp [Nat.add_comm bs.length, Nat.add_assoc]

/-- The end of `CAPTURE`: the missing bytes are stored, and the operation ends on the verdict (rule R115). -/
def endCapture (bs : List Byte) (s : State) : State := complete (verdict (storeBytes bs s)) (storeBytes bs s)

/-- A queue that begins with exactly the missing bytes ends the operation, and the rest of the queue stays. -/
theorem handOver_capture (bs rest : List Byte) {s : State} (hp : s.phase = .capture) (hne : bs ≠ [])
    (hlen : s.cnt.val + bs.length = lenBytes s.len) :
    handOver (bs ++ rest) s = { endCapture bs s with rx := rest } := by
  induction bs generalizing s with
  | nil => exact absurd rfl hne
  | cons b bs ih =>
    rw [List.length_cons] at hlen
    have ha : acceptsByte s = true := acceptsByte_capture hp (by omega)
    have hcons : handOver (b :: bs ++ rest) s = handOver (bs ++ rest) (rxByte b s) := if_pos ha
    rw [hcons]
    cases bs with
    | nil =>
      rw [rxByte_last b hp hlen]
      exact handOver_of_not_accepts rfl rest
    | cons b' bs =>
      have hle := lenBytes_le s.len
      rw [List.length_cons] at hlen
      rw [rxByte_store b hp (by omega)]
      refine ih hp (by simp) ?_
      rw [storeByte_cnt_val b (by omega), List.length_cons]
      exact Eq.trans (by omega) hlen

/-- A hunt met by a marker and exactly the missing bytes, whatever byte it has seen before. -/
theorem handOver_frame (bs rest : List Byte) {s : State} (hp : s.phase = .hunt) (hlen : bs.length = lenBytes s.len) :
    handOver (marker ++ bs ++ rest) s = { endCapture bs (enterCapture s) with rx := rest } := by
  have hmark0 : rxByte Config.mark0 s = { s with prev42 := true } := rxByte_no_marker hp fun h => absurd h.2 (by decide)
  have hmark1 : rxByte Config.mark1 { s with prev42 := true } = enterCapture s :=
    rxByte_marker hp rfl rfl
  have hne : bs ≠ [] := by
    rintro rfl
    exact absurd hlen (lenBytes_pos s.len).ne
  have hfirst : handOver (marker ++ bs ++ rest) s = handOver (Config.mark1 :: (bs ++ rest)) (rxByte Config.mark0 s) :=
    if_pos (acceptsByte_hunt hp)
  have hsecond : handOver (Config.mark1 :: (bs ++ rest)) { s with prev42 := true }
      = handOver (bs ++ rest) (rxByte Config.mark1 { s with prev42 := true }) := if_pos (acceptsByte_hunt hp)
  rw [hfirst, hmark0, hsecond, hmark1]
  exact handOver_capture bs rest (s := enterCapture s) rfl hne ((Nat.zero_add _).trans hlen)

end Sys2Proof.Machine

namespace Sys2Proof.Machine

/-! ### A whole frame (30_encoding.md rules R83, R84, log entry 11) -/

theorem exec_readingFrame (p : Vector Byte 30) (s : State) :
    exec (.readingFrame p) s = .next (handOver (s.rx ++ wireFrame p) s) := rfl

theorem exec_ackFrame (p : Vector Byte 6) (s : State) :
    exec (.ackFrame p) s = .next (handOver (s.rx ++ wireFrame p) s) := rfl

/-- Settles O42: a block that receives nothing leaves the queue, and the frame at its tail. -/
theorem frameWaitsWhileNothingIsReceived : Obligations.FrameWaitsWhileNothingIsReceived := by
  unfold Obligations.FrameWaitsWhileNothingIsReceived
  intro s p q hp
  have ha := acceptsByte_of_not_receiving hp
  exact ⟨congrArg Host.Outcome.next (handOver_of_not_accepts ha (s.rx ++ wireFrame p)),
    congrArg Host.Outcome.next (handOver_of_not_accepts ha (s.rx ++ wireFrame q))⟩

/-! #### The result of a full payload -/

/-- The end of `CAPTURE`, written out for the outcome of the check. -/
theorem endCapture_eq {bs : List Byte} {s : State} {passes : Bool}
    (h : check (capturedPayload (storeBytes bs s).buf s.len) = passes) :
    endCapture bs s = { s with
      phase := .idle, done := true, buf := (storeBytes bs s).buf, cnt := (storeBytes bs s).cnt
      status := if passes then .ok else .checksumMismatch
      mode := if passes ∧ s.op = .setMode then s.reqMode else s.mode
      reading := if passes ∧ s.op = .read then codec (bufWords (storeBytes bs s).buf) else s.reading
      rvalid := if passes ∧ s.op = .read then true else s.rvalid } := by
  subst h
  obtain ⟨buf, cnt, hstored⟩ : ∃ buf cnt, storeBytes bs s = { s with buf := buf, cnt := cnt } :=
    ⟨_, _, storeBytes_eq bs s⟩
  rw [endCapture, hstored]
  simp only [complete, verdict_ok]
  rfl

theorem storeBytes_cnt_eq {bs : List Byte} {s : State} {n : Fin 31} (hcnt : s.cnt = 0) (hlen : bs.length = n.val) :
    (storeBytes bs s).cnt = n := by
  have hle := n.isLt
  apply Fin.ext
  rw [storeBytes_cnt_val bs (by rw [hcnt]; simp; omega), hcnt, ← hlen]
  simp

/-- A whole payload stored from the first cell on is what the check sees. -/
theorem capturedPayload_storeBytes {bs : List Byte} {s : State} {l : RespLen} (hcnt : s.cnt = 0)
    (hlen : bs.length = lenBytes l) : (capturedPayload (storeBytes bs s).buf l).toList = bs := by
  have hle := lenBytes_le l
  rw [capturedPayload_toList, storeBytes_buf bs (by simp [hcnt]; omega)]
  simp [hcnt, ← hlen]

theorem check_storeBytes_ack {p : Vector Byte 6} {s : State} (hcnt : s.cnt = 0) (hlen : s.len = .ack) :
    check (capturedPayload (storeBytes p.toList s).buf s.len) = check (n := 3) p := by
  have hp : capturedPayload (storeBytes p.toList s).buf .ack = p :=
    Vector.toList_inj.mp (capturedPayload_storeBytes hcnt (by simp [lenBytes, Config.lAck]))
  rw [hlen, hp]
  rfl

/-- A reading's payload fills BUF. -/
theorem storeBytes_reading_buf (p : Vector Byte 30) {s : State} (hcnt : s.cnt = 0) : (storeBytes p.toList s).buf = p := by
  apply Vector.toList_inj.mp
  rw [storeBytes_buf _ (by simp [hcnt])]
  simp [hcnt]

/-- Bytes stored from the first cell on, as memory. -/
theorem memRead8_storeBytes {bs : List Byte} {s : State} (hcnt : s.cnt = 0) (hlen : bs.length ≤ 30) (a : Nat) :
    memRead8 (storeBytes bs s) a = if a < bs.length then bs[a]? else memRead8 s a := by
  have hbuf : (storeBytes bs s).buf.toList = bs ++ s.buf.toList.drop bs.length := by
    rw [storeBytes_buf bs (by simp [hcnt]; omega)]
    simp [hcnt]
  rw [memRead8, memRead8, ← Vector.getElem?_toList, ← Vector.getElem?_toList, hbuf, List.getElem?_append]
  split
  · rfl
  · rw [List.getElem?_drop]
    congr 1
    omega

/-- Settles O43: the hunt takes the marker and BUF the payload; nothing is left in RX. -/
theorem readingFrameAnswersTheHunt : Obligations.ReadingFrameAnswersTheHunt := by
  unfold Obligations.ReadingFrameAnswersTheHunt
  intro s p hp hrx hlen
  have hbuf : (storeBytes p.toList (enterCapture s)).buf = p := storeBytes_reading_buf p rfl
  have hcnt : (storeBytes p.toList (enterCapture s)).cnt = 30 := storeBytes_cnt_eq rfl (by simp)
  have hcheck : check (capturedPayload (storeBytes p.toList (enterCapture s)).buf (enterCapture s).len)
      = check (n := 15) p := by
    rw [hbuf, show (enterCapture s).len = .reading from hlen]
    rfl
  have hhand := handOver_frame p.toList [] hp (by simp [hlen, lenBytes, Config.lReading])
  rw [List.append_nil, endCapture_eq hcheck, hbuf, hcnt, ← hrx] at hhand
  rw [exec_readingFrame, show s.rx ++ wireFrame p = marker ++ p.toList by rw [hrx]; rfl]
  simp only [enterCapture] at hhand
  exact congrArg Host.Outcome.next hhand

/-- Settles O44: the hunt takes the marker and BUF's first six cells the payload. -/
theorem ackFrameAnswersTheHunt : Obligations.AckFrameAnswersTheHunt := by
  unfold Obligations.AckFrameAnswersTheHunt
  intro s p hp hrx hlen
  have hcnt : (storeBytes p.toList (enterCapture s)).cnt = 6 := storeBytes_cnt_eq rfl (by simp)
  have hmem := memRead8_storeBytes (bs := p.toList) (s := enterCapture s) rfl (by simp)
  have hhand := handOver_frame p.toList [] hp (by simp [hlen, lenBytes, Config.lAck])
  rw [List.append_nil, endCapture_eq (check_storeBytes_ack (s := enterCapture s) rfl hlen), hcnt, ← hrx] at hhand
  rw [exec_ackFrame, show s.rx ++ wireFrame p = marker ++ p.toList by rw [hrx]; rfl]
  refine ⟨_, congrArg Host.Outcome.next hhand, fun a => ?_, rfl, rfl, fun hop => ?_, fun hop hc => ?_, fun hc => ?_, rfl⟩
  · exact (hmem a).trans (by rw [Vector.length_toList, Vector.getElem?_toList]; rfl)
  · exact ⟨if_neg fun h => hop h.2, if_neg fun h => hop h.2⟩
  · exact ⟨if_pos ⟨hc, hop⟩, if_pos ⟨hc, hop⟩⟩
  · simp [hc, enterCapture]

/-- The first six bytes of a reading's payload, as the payload of an acknowledgement. -/
def ackOfReading (p : Vector Byte 30) : Vector Byte 6 := #v[p[0], p[1], p[2], p[3], p[4], p[5]]

theorem toList_ackOfReading (p : Vector Byte 30) : (ackOfReading p).toList = p.toList.take 6 := by
  apply List.ext_getElem
  · simp
  · intro i hi _
    have hi : i < 6 := by simpa using hi
    interval_cases i <;> simp [ackOfReading]

/-- Settles O45: the frame is the marker, an acknowledgement's payload, and 24 bytes that stay in RX. -/
theorem readingFrameIsTakenForAnAcknowledgement : Obligations.ReadingFrameIsTakenForAnAcknowledgement := by
  unfold Obligations.ReadingFrameIsTakenForAnAcknowledgement
  intro s p hp hrx hlen
  let q := ackOfReading p
  have hq : q.toList = p.toList.take 6 := toList_ackOfReading p
  have hmem := memRead8_storeBytes (bs := q.toList) (s := enterCapture s) rfl (by simp)
  have hsplit : s.rx ++ wireFrame p = marker ++ q.toList ++ p.toList.drop 6 := by
    rw [hrx, hq, List.append_assoc, List.take_append_drop]
    rfl
  have hhand := handOver_frame q.toList (p.toList.drop 6) hp (by simp [hlen, lenBytes, Config.lAck])
  rw [endCapture_eq (check_storeBytes_ack (s := enterCapture s) rfl hlen)] at hhand
  rw [exec_readingFrame, hsplit]
  refine ⟨_, congrArg Host.Outcome.next hhand, rfl, rfl, rfl, fun a => ?_, ?_⟩
  · refine (hmem a).trans ?_
    rw [Vector.length_toList, hq]
    by_cases ha : a < 6
    · rw [if_pos ha, if_pos ha, List.getElem?_take_of_lt ha, Vector.getElem?_toList]
    · rw [if_neg ha, if_neg ha]
      rfl
  · exact if_congr (check_iff (n := 3) q (by decide)) rfl rfl

/-! #### What a frame leaves unchanged -/

/-- From `s` to `t` nothing is written but what reception writes. -/
def ReceptionFrame (s t : State) : Prop :=
  t = { s with
    mode := t.mode, phase := t.phase, prev42 := t.prev42, cnt := t.cnt, buf := t.buf, done := t.done
    status := t.status, rvalid := t.rvalid, reading := t.reading, rx := t.rx }

theorem ReceptionFrame.refl (s : State) : ReceptionFrame s s := rfl

theorem ReceptionFrame.trans {s t u : State} (h : ReceptionFrame s t) (h' : ReceptionFrame t u) : ReceptionFrame s u := by
  unfold ReceptionFrame at h h' ⊢
  rw [h']
  rw [h]

theorem rxByte_receptionFrame (b : Byte) {s : State} (ha : acceptsByte s = true) : ReceptionFrame s (rxByte b s) := by
  rcases rxByte_cases b s ha with ⟨_, _, _, ht⟩ | ⟨_, _, ht⟩ | ⟨_, _, ht⟩ | ⟨_, _, ht⟩ <;> rw [ht] <;> rfl

theorem handOver_receptionFrame (bs : List Byte) (s : State) : ReceptionFrame s (handOver bs s) :=
  handOver_preserves (P := ReceptionFrame s) (fun _ _ h => h.trans rfl) (fun b _ ha h => h.trans (rxByte_receptionFrame b ha))
    bs s (.refl s)

/-- `LEN` and every cell of BUF from `LEN` on are those of `s`. -/
def KeepsBeyondLen (s t : State) : Prop := t.len = s.len ∧ ∀ a, lenBytes s.len ≤ a → memRead8 t a = memRead8 s a

/-- A byte is stored below `LEN` only. -/
theorem KeepsBeyondLen.rxByte {s u : State} (h : KeepsBeyondLen s u) (b : Byte) (ha : acceptsByte u = true) :
    KeepsBeyondLen s (rxByte b u) := by
  obtain ⟨hlen, hcells⟩ := h
  have stored (hle : u.cnt.val + 1 ≤ lenBytes u.len) (a : Nat) (hbeyond : lenBytes s.len ≤ a) :
      memRead8 (storeByte b u) a = memRead8 s a := by
    have h30 := lenBytes_le u.len
    rw [hlen] at hle h30
    rw [memRead8_storeByte b (by omega), if_neg (by omega)]
    exact hcells a hbeyond
  rcases rxByte_cases b u ha with ⟨_, _, _, ht⟩ | ⟨_, _, ht⟩ | ⟨_, hlt, ht⟩ | ⟨_, hlast, ht⟩ <;> rw [ht]
  · exact ⟨hlen, hcells⟩
  · exact ⟨hlen, hcells⟩
  · exact ⟨hlen, stored hlt.le⟩
  · exact ⟨hlen, stored hlast.le⟩

theorem handOver_keepsBeyondLen (bs : List Byte) (s : State) : KeepsBeyondLen s (handOver bs s) :=
  handOver_preserves (P := KeepsBeyondLen s) (fun _ _ h => h) (fun b _ ha h => h.rxByte b ha) bs s ⟨rfl, fun _ _ => rfl⟩

/-- What an operation in progress in `s` has made of the results: none of them is written before its end, and at its end a
status other than OK comes with the old `MODE` and reading. -/
structure ResultsOf (s t : State) : Prop where
  pending : t.phase ≠ .idle →
    t.done = s.done ∧ t.status = s.status ∧ t.rvalid = s.rvalid ∧ t.mode = s.mode ∧ t.reading = s.reading
  ended : t.phase = .idle →
    t.done = true ∧ (t.status ≠ .ok → t.rvalid = s.rvalid ∧ t.mode = s.mode ∧ t.reading = s.reading)

/-- An update in the middle of an operation that writes none of the results. -/
theorem ResultsOf.update {s u t : State} (h : ResultsOf s u) (hp : u.phase ≠ .idle) (hp' : t.phase ≠ .idle)
    (hdone : t.done = u.done) (hst : t.status = u.status) (hv : t.rvalid = u.rvalid) (hm : t.mode = u.mode)
    (hr : t.reading = u.reading) : ResultsOf s t where
  pending _ := by rw [hdone, hst, hv, hm, hr]; exact h.pending hp
  ended hidle := absurd hidle hp'

theorem ResultsOf.complete {s u : State} (h : ResultsOf s u) (hp : u.phase ≠ .idle) (st : Status) :
    ResultsOf s (complete st u) where
  pending hbusy := absurd rfl hbusy
  ended _ := by
    refine ⟨rfl, fun hst => ?_⟩
    have hst : st ≠ .ok := hst
    rw [complete_error hst]
    obtain ⟨_, _, hkept⟩ := h.pending hp
    exact hkept

theorem ResultsOf.rxByte {s u : State} (h : ResultsOf s u) (b : Byte) (ha : acceptsByte u = true) :
    ResultsOf s (rxByte b u) := by
  have hp : u.phase ≠ .idle := by rcases acceptsByte_phase ha with hp | hp <;> simp [hp]
  rcases rxByte_cases b u ha with ⟨_, _, _, ht⟩ | ⟨_, _, ht⟩ | ⟨_, _, ht⟩ | ⟨_, _, ht⟩ <;> rw [ht]
  · exact h.update hp (by simp) rfl rfl rfl rfl rfl
  · exact h.update hp hp rfl rfl rfl rfl rfl
  · exact h.update hp hp rfl rfl rfl rfl rfl
  · exact (h.update (t := storeByte b u) hp hp rfl rfl rfl rfl rfl).complete hp _

theorem handOver_resultsOf (bs : List Byte) {s : State} (hp : s.phase ≠ .idle) : ResultsOf s (handOver bs s) :=
  handOver_preserves (P := ResultsOf s) (fun _ _ h => ⟨h.pending, h.ended⟩) (fun b _ ha h => h.rxByte b ha) bs s
    ⟨fun _ => ⟨rfl, rfl, rfl, rfl, rfl⟩, fun hidle => absurd hidle hp⟩

/-- Settles O46: what no byte of the queue changes, the queue does not, and a change of `MODE` or of the reading is its
commit. -/
theorem frameReceptionFrame : Obligations.FrameReceptionFrame := by
  unfold Obligations.FrameReceptionFrame
  intro s i hi
  obtain ⟨bs, hx⟩ : ∃ bs, exec i s = .next (handOver bs s) := by
    rcases hi with ⟨p, rfl⟩ | ⟨p, rfl⟩
    · exact ⟨_, exec_readingFrame p s⟩
    · exact ⟨_, exec_ackFrame p s⟩
  refine ⟨_, hx, handOver_receptionFrame bs s, (handOver_keepsBeyondLen bs s).2, fun hm => ?_, fun hr => ?_, fun hp => ?_⟩
  · obtain ⟨hop, _, hmode, _, hidle, hdone, hst⟩ := (handOver_withinOperation bs s).mode.resolve_left hm
    exact ⟨hop, hmode, hst, hdone, hidle⟩
  · rcases handOver_keepsOrCommits bs s with ⟨hkept, _⟩ | ⟨hop, _, _, hidle, hdone, hst, hv, _⟩
    · exact absurd hkept hr
    · exact ⟨hop, hv, hst, hdone, hidle⟩
  · by_cases hbusy : s.phase = .idle
    · rw [handOver_of_not_accepts (acceptsByte_of_not_receiving (.inl hbusy))] at hp
      exact absurd hbusy hp
    · obtain ⟨hdone, hst, hv, _⟩ := (handOver_resultsOf bs hbusy).pending hp
      exact ⟨hdone, hst, hv⟩

/-! #### A frame as the run of its bytes -/

/-- Bytes sent one by one join the queue's tail. -/
theorem runSteps_sensorBytes (bs : List Byte) (k : Nat) {s : State} {l : List Input}
    (h : s.inbox = bs.map Input.sensorByte ++ l) :
    runSteps (bs.length + k) s = runSteps k { s with rx := s.rx ++ bs, inbox := l } := by
  induction bs generalizing s with
  | nil =>
    obtain rfl : s.inbox = l := h
    simp
  | cons b bs ih =>
    let u : State := { s with inbox := bs.map Input.sensorByte ++ l }
    have hstep : step s = .next (sensorByte b u) := step_cons h
    rw [List.length_cons, Nat.add_right_comm, runSteps, hstep]
    exact (ih (s := sensorByte b u) rfl).trans (by simp [u, sensorByte])

/-- Offers that the block does not take change nothing. -/
theorem runSteps_rxByte_refused (n : Nat) {s : State} {l : List Input} (h : s.inbox = List.replicate n .rxByte ++ l)
    (ha : acceptsByte s = false) : runSteps n s = .next { s with inbox := l } := by
  induction n generalizing s with
  | zero =>
    obtain rfl : s.inbox = l := h
    rfl
  | succ n ih =>
    let u : State := { s with inbox := List.replicate n .rxByte ++ l }
    have hkept : takeRxByte u = u := takeRxByte_refused (.inr ha)
    have hstep : step s = .next u := (step_cons h).trans (congrArg Host.Outcome.next hkept)
    rw [runSteps, hstep]
    exact ih (s := u) rfl ha

/-- As many offers as there are bytes in RX hand RX over. -/
theorem runSteps_rxByte (q : List Byte) {s : State} {l : List Input} (hrx : s.rx = q)
    (h : s.inbox = List.replicate q.length .rxByte ++ l) :
    runSteps q.length s = .next { handOver q s with inbox := l } := by
  induction q generalizing s with
  | nil =>
    obtain rfl : s.inbox = l := h
    change Host.Outcome.next s = .next { s with rx := [] }
    rw [← hrx]
  | cons b q ih =>
    cases ha : acceptsByte s with
    | false =>
      rw [runSteps_rxByte_refused _ h ha, handOver_of_not_accepts ha, ← hrx]
    | true =>
      let v : State := rxByte b { s with rx := q, inbox := List.replicate q.length .rxByte ++ l }
      have hv : v = { rxByte b s with rx := q, inbox := List.replicate q.length .rxByte ++ l } := rxByte_env b s q _
      have hstep : step s = .next v := step_rxByte h hrx ha
      have hrest : runSteps q.length v = .next { handOver q v with inbox := l } := ih (by rw [hv]) (by rw [hv])
      have hcons : handOver (b :: q) s = handOver q (rxByte b s) := if_pos ha
      rw [List.length_cons, runSteps, hstep]
      exact hrest.trans (by rw [hv, handOver_env, hcons])

/-- The bytes sent by the sensor, and then an offer for every queued byte. -/
theorem runSteps_frame (bytes : List Byte) (s : State) :
    runSteps (bytes.length + (s.rx.length + bytes.length))
      { s with inbox := bytes.map Input.sensorByte ++ (List.replicate (s.rx.length + bytes.length) Input.rxByte ++ s.inbox) }
    = .next (handOver (s.rx ++ bytes) s) := by
  let l := List.replicate (s.rx.length + bytes.length) Input.rxByte ++ s.inbox
  let u : State := { s with rx := s.rx ++ bytes, inbox := l }
  have hlen : s.rx.length + bytes.length = (s.rx ++ bytes).length := (List.length_append).symm
  have hsent := runSteps_sensorBytes bytes (s.rx.length + bytes.length)
    (s := { s with inbox := bytes.map Input.sensorByte ++ l }) rfl
  have hoffered : runSteps (s.rx ++ bytes).length u = .next { handOver (s.rx ++ bytes) u with inbox := s.inbox } :=
    runSteps_rxByte (s.rx ++ bytes) rfl (by rw [← hlen])
  have hinbox : { handOver (s.rx ++ bytes) s with inbox := s.inbox } = handOver (s.rx ++ bytes) s :=
    (handOver_env (s.rx ++ bytes) s s.rx s.inbox).symm
  refine hsent.trans ?_
  rw [hlen]
  refine hoffered.trans (congrArg Host.Outcome.next ?_)
  rw [handOver_env]
  exact hinbox

/-- Settles O47: both frame rows hand over the queue with the frame at its tail, and so do the events. -/
theorem frameIsTheRunOfItsBytes : Obligations.FrameIsTheRunOfItsBytes := by
  unfold Obligations.FrameIsTheRunOfItsBytes
  intro s i bytes henc hi
  refine (runSteps_frame bytes s).trans ?_
  rcases hi with ⟨p, rfl⟩ | ⟨p, rfl⟩
  · obtain rfl := Encoded.frame.inj henc
    exact (exec_readingFrame p s).symm
  · obtain rfl := Encoded.frame.inj henc
    exact (exec_ackFrame p s).symm

end Sys2Proof.Machine

namespace Sys2Proof.Machine

/-! ### What a frame that is taken has done -/

/-- A request has been sent whole from `IDLE`; its operation is complete, or waits for its response. -/
structure RequestSent (s t : State) (frame : List Byte) : Prop where
  idle_before : s.phase = .idle
  status_ok : t.status = .ok
  rx_eq : t.rx = s.rx
  txs_eq : t.txs = s.txs ++ frame
  waits_or_done : t.phase = .idle ∨ (t.phase = .wait ∧ t.expect = true ∧ t.txi = 7 ∧ (t.op = .read → s.mode = .passive))

/-- The two frame kinds the sensor sends. -/
def IsSensorFrame (f : List Byte) : Prop := (∃ p : Vector Byte 30, f = wireFrame p) ∨ ∃ p : Vector Byte 6, f = wireFrame p

/-- What an instruction whose word is a frame has done: sent that frame, nothing, or received it. -/
theorem exec_frame_next {i : Instr} {f : List Byte} {s t : State} (henc : encode i = .frame f) (hx : exec i s = .next t) :
    RequestSent s t f ∨ t = s ∨ (IsSensorFrame f ∧ t = handOver (s.rx ++ f) s) := by
  have eq_of_exec {u : State} (hu : exec i s = .next u) : t = u := (Host.Outcome.next.inj (hu.symm.trans hx)).symm
  cases i with
  | wakeup =>
    obtain rfl := Encoded.frame.inj henc
    obtain ⟨hp, _⟩ := whenIdle_next hx
    obtain rfl := eq_of_exec (wakeupCommandCompletes s hp)
    exact .inl ⟨hp, rfl, rfl, rfl, .inl rfl⟩
  | sleep =>
    obtain rfl := Encoded.frame.inj henc
    obtain ⟨hp, _⟩ := whenIdle_next hx
    obtain ⟨hsleep, _⟩ := awaitedCommandsGoOutAndWait s hp
    obtain rfl := eq_of_exec hsleep
    exact .inl ⟨hp, rfl, rfl, rfl, .inr ⟨rfl, rfl, rfl, HostOp.noConfusion⟩⟩
  | setModeActive =>
    obtain rfl := Encoded.frame.inj henc
    obtain ⟨hp, _⟩ := whenIdle_next hx
    obtain ⟨_, hactive, _⟩ := awaitedCommandsGoOutAndWait s hp
    obtain rfl := eq_of_exec hactive
    exact .inl ⟨hp, rfl, rfl, rfl, .inr ⟨rfl, rfl, rfl, HostOp.noConfusion⟩⟩
  | setModePassive =>
    obtain rfl := Encoded.frame.inj henc
    obtain ⟨hp, _⟩ := whenIdle_next hx
    obtain ⟨_, _, hpassive, _⟩ := awaitedCommandsGoOutAndWait s hp
    obtain rfl := eq_of_exec hpassive
    exact .inl ⟨hp, rfl, rfl, rfl, .inr ⟨rfl, rfl, rfl, HostOp.noConfusion⟩⟩
  | passiveRead =>
    obtain rfl := Encoded.frame.inj henc
    obtain ⟨hp, _⟩ := whenIdle_next hx
    obtain ⟨_, _, _, hsent, hnot⟩ := awaitedCommandsGoOutAndWait s hp
    cases hm : s.mode with
    | passive =>
      obtain rfl := eq_of_exec (hsent hm)
      exact .inl ⟨hp, rfl, rfl, rfl, .inr ⟨rfl, rfl, rfl, fun _ => hm⟩⟩
    | active => exact .inr (.inl (eq_of_exec (hnot hm)))
  | cmdGeneric o d c => exact .inr (.inl (eq_of_exec rfl))
  | readingFrame p =>
    obtain rfl := Encoded.frame.inj henc
    exact .inr (.inr ⟨.inl ⟨p, rfl⟩, eq_of_exec (exec_readingFrame p s)⟩)
  | ackFrame p =>
    obtain rfl := Encoded.frame.inj henc
    exact .inr (.inr ⟨.inr ⟨p, rfl⟩, eq_of_exec (exec_ackFrame p s)⟩)
  | _ => exact Encoded.noConfusion henc

theorem step_frame_next {s t : State} {f : List Byte} {rest : List Input} (hin : s.inbox = .instr (.frame f) :: rest)
    (h : step s = .next t) :
    RequestSent { s with inbox := rest } t f ∨ t = { s with inbox := rest }
      ∨ (IsSensorFrame f ∧ t = handOver (s.rx ++ f) { s with inbox := rest }) := by
  cases hdec : decode s.mode (.frame f) with
  | ok i => exact exec_frame_next (encode_of_decode hdec) ((step_decoded hin hdec).symm.trans h)
  | rejected e => exact absurd ((step_rejected hin hdec).symm.trans h) (by simp)

/-- A host word that is taken is a start in `IDLE`. -/
theorem step_hostWord_next {s t : State} {h : HostWord} {rest : List Input} (hin : s.inbox = .instr (.host h) :: rest)
    (hstep : step s = .next t) :
    s.phase = .idle ∧ t = hostStart (hostWordOp h) (hostWordArg h) { s with inbox := rest } :=
  whenIdle_next ((step_hostWord hin).symm.trans hstep)

/-- The state after the input `e` has been taken. -/
theorem take_of_step {s t : State} {e : Input} {rest : List Input} (hin : s.inbox = e :: rest) (h : step s = .next t) :
    take e { s with inbox := rest } = .next t :=
  (step_cons hin).symm.trans h

/-! ### The phases (45_session.md rule R211) -/

/-- A start leads from `IDLE` along an edge of the table. -/
theorem hostStart_phaseEdge (op : HostOp) (arg : U16) (s : State) : phaseEdge .idle (hostStart op arg s).phase = true := by
  rcases hostStart_cases op arg s with
    ⟨_, _, hs⟩ | ⟨_, _, hs⟩ | ⟨_, hs⟩ | ⟨_, hs⟩ | ⟨_, _, hs⟩ | ⟨_, _, hs⟩ <;> rw [hs] <;> rfl

theorem txAccept_phaseEdge {s : State} (hp : s.phase = .tx) : phaseEdge s.phase (txAccept s).phase = true := by
  rcases txAccept_cases s with ⟨_, _, ⟨_, ht⟩ | ⟨_, _, ht⟩ | ⟨_, _, ht⟩⟩ | ⟨_, ht⟩ <;> simp [ht, hp, phaseEdge]

theorem rxByte_phaseEdge (b : Byte) {s : State} (ha : acceptsByte s = true) :
    phaseEdge s.phase (rxByte b s).phase = true := by
  rcases rxByte_cases b s ha with ⟨hp, _, _, ht⟩ | ⟨hp, _, ht⟩ | ⟨hp, _, ht⟩ | ⟨hp, _, ht⟩ <;> simp [ht, hp, phaseEdge]

/-- Within reception the edges compose: from `CAPTURE` nothing leads back to `HUNT`. -/
theorem phaseEdge_trans_receiving {a b c : Phase} (ha : a = .hunt ∨ a = .capture) (hab : phaseEdge a b = true)
    (hbc : phaseEdge b c = true) (hb : b ≠ .idle) : phaseEdge a c = true := by
  rcases ha with rfl | rfl
  · cases b with
    | hunt => exact hbc
    | capture => cases c <;> simp [phaseEdge] at hbc ⊢
    | idle => exact absurd rfl hb
    | _ => exact absurd hab Bool.false_ne_true
  · cases b with
    | capture => exact hbc
    | idle => exact absurd rfl hb
    | _ => exact absurd hab Bool.false_ne_true

theorem phaseEdge_refl_receiving {a : Phase} (ha : a = .hunt ∨ a = .capture) : phaseEdge a a = true := by
  rcases ha with rfl | rfl <;> rfl

theorem handOver_phaseEdge (bs : List Byte) {s : State} (hp : s.phase = .hunt ∨ s.phase = .capture) :
    phaseEdge s.phase (handOver bs s).phase = true := by
  refine handOver_preserves (P := fun u => phaseEdge s.phase u.phase = true) (fun _ _ h => h) (fun b u ha h => ?_) bs s
    (phaseEdge_refl_receiving hp)
  have hbusy : u.phase ≠ .idle := by rcases acceptsByte_phase ha with hu | hu <;> simp [hu]
  exact phaseEdge_trans_receiving hp h (rxByte_phaseEdge b ha) hbusy

/-- Settles O55: event by event, a step that leads to another phase has an entry in rule R41's table, and is an edge; a
frame leads elsewhere by its reception or by the sending of a request. -/
theorem phaseChangesAlongTheTable : Obligations.PhaseChangesAlongTheTable := by
  unfold Obligations.PhaseChangesAlongTheTable
  refine ⟨fun s t e rest hin hblock hstep hne => ?_, fun s t f rest hin hstep hne => ?_⟩
  · have htake := take_of_step hin hstep
    let u : State := { s with inbox := rest }
    cases e with
    | instr w =>
      cases w with
      | host h =>
        obtain ⟨hp, rfl⟩ := step_hostWord_next hin hstep
        rw [hp]
        exact ⟨hostStart_phaseEdge _ _ _, rfl⟩
      | frame f => exact absurd hblock (by simp [isBlockEvent])
    | txAccept =>
      obtain rfl := Host.Outcome.next.inj htake
      by_cases hp : s.phase = .tx
      · exact ⟨txAccept_phaseEdge (s := u) hp, by simp [hasStep, hp]⟩
      · exact absurd (congrArg State.phase (txAccept_of_phase_ne (s := u) hp)) hne
    | waitDone =>
      obtain rfl := Host.Outcome.next.inj htake
      rcases waitDone_cases u with ⟨hp, ht⟩ | ⟨_, ht⟩
      · have hp : s.phase = .wait := hp
        rw [ht, hp]
        exact ⟨rfl, rfl⟩
      · exact absurd (congrArg State.phase ht) hne
    | rxByte =>
      obtain rfl := Host.Outcome.next.inj htake
      rcases takeRxByte_cases u with ⟨b, bs, _, ha, ht⟩ | ⟨_, ht⟩
      · rw [ht]
        exact ⟨rxByte_phaseEdge b (s := { u with rx := bs }) ha, by
          rcases acceptsByte_phase ha with hp | hp <;> simp [hasStep, show s.phase = _ from hp]⟩
      · exact absurd (congrArg State.phase ht) hne
    | rxTimeout =>
      obtain rfl := Host.Outcome.next.inj htake
      rcases takeRxTimeout_cases u with ⟨_, hp, ht⟩ | ⟨_, ht⟩
      · rw [ht]
        rcases hp with hp | hp <;> simp [phaseEdge, hasStep, show s.phase = _ from hp]
      · exact absurd (congrArg State.phase ht) hne
    | ioFault =>
      obtain rfl := Host.Outcome.next.inj htake
      rcases ioFault_cases u with ⟨hp, ht⟩ | ⟨_, ht⟩
      · rw [ht]
        rcases hp with hp | hp | hp <;> simp [phaseEdge, hasStep, show s.phase = _ from hp]
      · exact absurd (congrArg State.phase ht) hne
    | reset => exact absurd hblock (by simp [isBlockEvent])
    | sensorByte b => exact absurd hblock (by simp [isBlockEvent])
  · rcases step_frame_next hin hstep with hsent | rfl | ⟨_, rfl⟩
    · have hidle : s.phase = .idle := hsent.idle_before
      rcases hsent.waits_or_done with hdone | ⟨hwait, hexp, htxi, hread⟩
      · exact absurd (hdone.trans hidle.symm) hne
      · exact .inr ⟨hidle, hwait, hexp, htxi, hread⟩
    · exact absurd rfl hne
    · left
      cases ha : acceptsByte { s with inbox := rest } with
      | true =>
        have hp : s.phase = .hunt ∨ s.phase = .capture := acceptsByte_phase ha
        exact ⟨handOver_phaseEdge _ (s := { s with inbox := rest }) hp, hp⟩
      | false =>
        rw [handOver_of_not_accepts ha] at hne
        exact absurd rfl hne

end Sys2Proof.Machine

namespace Sys2Proof.Machine

/-! ### The two byte streams (20_memory.md rules R51 to R53) -/

/-! #### RX -/

theorem hostStart_rx (op : HostOp) (arg : U16) (s : State) : (hostStart op arg s).rx = s.rx := by
  rcases hostStart_cases op arg s with
    ⟨_, _, hs⟩ | ⟨_, _, hs⟩ | ⟨_, hs⟩ | ⟨_, hs⟩ | ⟨_, _, hs⟩ | ⟨_, _, hs⟩ <;> rw [hs] <;> rfl

theorem txAccept_rx (s : State) : (txAccept s).rx = s.rx := by
  rcases txAccept_cases s with ⟨_, _, ⟨_, ht⟩ | ⟨_, _, ht⟩ | ⟨_, _, ht⟩⟩ | ⟨_, ht⟩ <;> rw [ht] <;> rfl

theorem waitDone_rx (s : State) : (waitDone s).rx = s.rx := by
  rcases waitDone_cases s with ⟨_, ht⟩ | ⟨_, ht⟩ <;> rw [ht]
  rfl

theorem rxByte_rx (b : Byte) {s : State} (ha : acceptsByte s = true) : (rxByte b s).rx = s.rx := by
  rcases rxByte_cases b s ha with ⟨_, _, _, ht⟩ | ⟨_, _, ht⟩ | ⟨_, _, ht⟩ | ⟨_, _, ht⟩ <;> rw [ht] <;> rfl

theorem takeRxTimeout_rx (s : State) : (takeRxTimeout s).rx = s.rx := by
  rcases takeRxTimeout_cases s with ⟨_, _, ht⟩ | ⟨_, ht⟩ <;> rw [ht]
  rfl

theorem ioFault_rx (s : State) : (ioFault s).rx = s.rx := by
  rcases ioFault_cases s with ⟨_, ht⟩ | ⟨_, ht⟩ <;> rw [ht]
  rfl

/-- An offered byte is the head of RX, and it is removed if the block takes it. -/
theorem takeRxByte_rx_of_accepts {s : State} {b : Byte} {bs : List Byte} (hrx : s.rx = b :: bs) (ha : acceptsByte s = true) :
    (takeRxByte s).rx = bs := by
  rw [takeRxByte_cons hrx ha]
  exact rxByte_rx b (s := { s with rx := bs }) ha

/-- What is left of a queue is a tail of it. -/
theorem handOver_rx_suffix (bs : List Byte) (s : State) : (handOver bs s).rx <:+ bs := by
  induction bs generalizing s with
  | nil => exact List.suffix_refl []
  | cons b bs ih =>
    cases ha : acceptsByte s with
    | false =>
      rw [handOver_of_not_accepts ha]
    | true =>
      have hcons : handOver (b :: bs) s = handOver bs (rxByte b s) := if_pos ha
      rw [hcons]
      exact (ih _).trans (List.suffix_cons b bs)

/-- A frame from the sensor joins the queue, of which a tail is left, all of it where nothing is received. -/
theorem step_sensorFrame_rx {s t : State} {f : List Byte} {rest : List Input} {i : Instr}
    (hin : s.inbox = .instr (.frame f) :: rest) (hdec : decode s.mode (.frame f) = .ok i)
    (hx : exec i { s with inbox := rest } = .next (handOver (s.rx ++ f) { s with inbox := rest })) (hstep : step s = .next t) :
    t.rx <:+ s.rx ++ f ∧ (s.phase = .idle ∨ s.phase = .tx ∨ s.phase = .wait → t.rx = s.rx ++ f) := by
  obtain rfl := Host.Outcome.next.inj (((step_decoded hin hdec).trans hx).symm.trans hstep)
  refine ⟨handOver_rx_suffix _ _, fun hp => ?_⟩
  rw [handOver_of_not_accepts (acceptsByte_of_not_receiving (s := { s with inbox := rest }) hp)]

/-- Every input but the sensor's bytes and frames, and an offered byte, leaves RX alone. -/
theorem step_rx_eq {s t : State} {e : Input} {rest : List Input} (hin : s.inbox = e :: rest) (hstep : step s = .next t)
    (hsensor : ∀ b, e ≠ .sensorByte b) (hbyte : e ≠ .rxByte) (hframe : ∀ f, IsSensorFrame f → e ≠ .instr (.frame f)) :
    t.rx = s.rx := by
  have htake := take_of_step hin hstep
  cases e with
  | instr w =>
    cases w with
    | host h =>
      obtain ⟨_, rfl⟩ := step_hostWord_next hin hstep
      exact hostStart_rx _ _ _
    | frame f =>
      rcases step_frame_next hin hstep with hsent | rfl | ⟨hf, _⟩
      · exact hsent.rx_eq
      · rfl
      · exact absurd rfl (hframe f hf)
  | txAccept =>
    obtain rfl := Host.Outcome.next.inj htake
    exact txAccept_rx _
  | waitDone =>
    obtain rfl := Host.Outcome.next.inj htake
    exact waitDone_rx _
  | rxByte => exact absurd rfl hbyte
  | rxTimeout =>
    obtain rfl := Host.Outcome.next.inj htake
    exact takeRxTimeout_rx _
  | ioFault =>
    obtain rfl := Host.Outcome.next.inj htake
    exact ioFault_rx _
  | reset =>
    obtain rfl := Host.Outcome.next.inj htake
    rfl
  | sensorByte b => exact absurd rfl (hsensor b)

/-- Settles O56: the sensor's byte, the offered byte, the two sensor frames, and every other input. -/
theorem bytesAreConsumedOnlyWhileReceiving : Obligations.BytesAreConsumedOnlyWhileReceiving := by
  unfold Obligations.BytesAreConsumedOnlyWhileReceiving
  refine ⟨fun s t hin hstep => ?_, fun s t e rest hin hstep => ⟨?_, ?_, ?_, ?_, fun hsensor hbyte hreading hack => ?_⟩⟩
  · obtain ⟨hnone, _⟩ := stepTakesTheOfferedEvent s []
    obtain rfl := Host.Outcome.next.inj ((hnone hin).symm.trans hstep)
    rfl
  · rintro b rfl
    obtain rfl := Host.Outcome.next.inj (take_of_step hin hstep)
    rfl
  · rintro rfl
    obtain rfl := Host.Outcome.next.inj (take_of_step hin hstep)
    exact ⟨fun b bs hrx ha => ⟨takeRxByte_rx_of_accepts (s := { s with inbox := rest }) hrx ha, acceptsByte_phase ha⟩,
      fun h => (congrArg State.rx (takeRxByte_refused (s := { s with inbox := rest }) h)).trans rfl⟩
  · rintro p rfl
    exact step_sensorFrame_rx hin (decodePayload_reading p) (exec_readingFrame p _) hstep
  · rintro p rfl
    exact step_sensorFrame_rx hin (decodePayload_ack p) (exec_ackFrame p _) hstep
  · refine step_rx_eq hin hstep hsensor hbyte fun f hf => ?_
    rcases hf with ⟨p, rfl⟩ | ⟨p, rfl⟩
    · exact hreading p
    · exact hack p

/-! #### TXS -/

theorem hostStart_txs (op : HostOp) (arg : U16) (s : State) : (hostStart op arg s).txs = s.txs := by
  rcases hostStart_cases op arg s with
    ⟨_, _, hs⟩ | ⟨_, _, hs⟩ | ⟨_, hs⟩ | ⟨_, hs⟩ | ⟨_, _, hs⟩ | ⟨_, _, hs⟩ <;> rw [hs] <;> rfl

theorem waitDone_txs (s : State) : (waitDone s).txs = s.txs := by
  rcases waitDone_cases s with ⟨_, ht⟩ | ⟨_, ht⟩ <;> rw [ht]
  rfl

theorem ReceptionFrame.txs_eq {s t : State} (h : ReceptionFrame s t) : t.txs = s.txs :=
  (congrArg State.txs h).trans rfl

theorem takeRxByte_txs (s : State) : (takeRxByte s).txs = s.txs := by
  rcases takeRxByte_cases s with ⟨b, bs, _, ha, ht⟩ | ⟨_, ht⟩ <;> rw [ht]
  exact (rxByte_receptionFrame b (s := { s with rx := bs }) ha).txs_eq

theorem takeRxTimeout_txs (s : State) : (takeRxTimeout s).txs = s.txs := by
  rcases takeRxTimeout_cases s with ⟨_, _, ht⟩ | ⟨_, ht⟩ <;> rw [ht]
  rfl

theorem ioFault_txs (s : State) : (ioFault s).txs = s.txs := by
  rcases ioFault_cases s with ⟨_, ht⟩ | ⟨_, ht⟩ <;> rw [ht]
  rfl

/-- `tx_accept` sends `tx_data`, or nothing. -/
theorem txAccept_txs (s : State) :
    (txAccept s).txs = s.txs ∨ (s.phase = .tx ∧ ∃ b, txData s = some b ∧ (txAccept s).txs = s.txs ++ [b]) := by
  rcases txAccept_cases s with ⟨hp, hlt, hsent⟩ | ⟨_, ht⟩
  · refine .inr ⟨hp, s.txbuf[s.txi.val], by simp [txData, hlt], ?_⟩
    rcases hsent with ⟨_, ht⟩ | ⟨_, _, ht⟩ | ⟨_, _, ht⟩ <;> rw [ht] <;> rfl
  · exact .inl (congrArg State.txs ht)

/-- The two ways in which `t` has sent bytes that `s` has not. -/
def HasSent (s t : State) : Prop :=
  (s.inbox.head? = some .txAccept ∧ s.phase = .tx ∧ ∃ b, txData s = some b ∧ t.txs = s.txs ++ [b])
  ∨ (s.phase = .idle ∧ ∃ f, s.inbox.head? = some (.instr (.frame f)) ∧ t.txs = s.txs ++ f)

theorem HasSent.txs_prefix {s t : State} (h : HasSent s t) : s.txs <+: t.txs := by
  rcases h with ⟨_, _, b, _, ht⟩ | ⟨_, f, _, ht⟩ <;> rw [ht] <;> exact List.prefix_append _ _

theorem step_txs {s t : State} (hstep : step s = .next t) : t.txs = s.txs ∨ HasSent s t := by
  cases hin : s.inbox with
  | nil =>
    obtain ⟨hnone, _⟩ := stepTakesTheOfferedEvent s []
    obtain rfl := Host.Outcome.next.inj ((hnone hin).symm.trans hstep)
    exact .inl rfl
  | cons e rest =>
    have htake := take_of_step hin hstep
    cases e with
    | instr w =>
      cases w with
      | host h =>
        obtain ⟨_, rfl⟩ := step_hostWord_next hin hstep
        exact .inl (hostStart_txs _ _ _)
      | frame f =>
        rcases step_frame_next hin hstep with hsent | rfl | ⟨_, rfl⟩
        · exact .inr (.inr ⟨hsent.idle_before, f, by rw [hin]; rfl, hsent.txs_eq⟩)
        · exact .inl rfl
        · exact .inl (handOver_receptionFrame _ { s with inbox := rest }).txs_eq
    | txAccept =>
      obtain rfl := Host.Outcome.next.inj htake
      rcases txAccept_txs { s with inbox := rest } with ht | ⟨hp, b, hb, ht⟩
      · exact .inl ht
      · exact .inr (.inl ⟨by rw [hin]; rfl, hp, b, hb, ht⟩)
    | waitDone =>
      obtain rfl := Host.Outcome.next.inj htake
      exact .inl (waitDone_txs _)
    | rxByte =>
      obtain rfl := Host.Outcome.next.inj htake
      exact .inl (takeRxByte_txs _)
    | rxTimeout =>
      obtain rfl := Host.Outcome.next.inj htake
      exact .inl (takeRxTimeout_txs _)
    | ioFault =>
      obtain rfl := Host.Outcome.next.inj htake
      exact .inl (ioFault_txs _)
    | reset =>
      obtain rfl := Host.Outcome.next.inj htake
      exact .inl rfl
    | sensorByte b =>
      obtain rfl := Host.Outcome.next.inj htake
      exact .inl rfl

/-- Settles O57: a step leaves TXS alone, or appends one byte or one request. -/
theorem transmittedBytesAreOnlyAppended : Obligations.TransmittedBytesAreOnlyAppended := by
  unfold Obligations.TransmittedBytesAreOnlyAppended
  intro s t hstep
  rcases step_txs hstep with hsame | hsent
  · exact ⟨hsame ▸ List.prefix_refl _, fun hne => absurd hsame hne⟩
  · exact ⟨hsent.txs_prefix, fun _ => hsent⟩

end Sys2Proof.Machine

namespace Sys2Proof.Machine

/-! ### Errors (60_exceptions.md rules R239, R240) -/

/-- A step that ends in an error keeps `MODE` and the reading: both are written by a completion with OK alone. -/
theorem step_error_keeps_results {s t : State} {e : Input} {rest : List Input} (hin : s.inbox = e :: rest) (hne : e ≠ .reset)
    (hstep : step s = .next t) (hst : t.status ≠ .ok) :
    t.mode = s.mode ∧ t.reading = s.reading ∧ (t.rvalid = s.rvalid ∨ t.rvalid = false) := by
  have hmode : t.mode = s.mode := by
    rcases step_keepsOrSetsMode hin hne hstep with hm | ⟨_, _, _, _, _, _, hok⟩
    · exact hm
    · exact absurd hok hst
  rcases step_keepsOrCommits hin hne hstep with ⟨hr, hv⟩ | ⟨_, _, _, _, _, hok, _⟩
  · refine ⟨hmode, hr, ?_⟩
    cases htv : t.rvalid with
    | false => exact .inr rfl
    | true => exact .inl (hv htv).symm
  · exact absurd hok hst

/-- What an operation in progress has become in a step on `e` that ends it with an error. -/
def EndedByError (s t : State) (e : Input) (rest : List Input) : Prop :=
  t = { s with
    phase := .idle, done := true, status := t.status, inbox := rest
    buf := t.buf, cnt := t.cnt, prev42 := t.prev42, rx := t.rx }
  ∧ (e = .rxTimeout ∨ e = .ioFault → t = { s with phase := .idle, done := true, status := .sensorError, inbox := rest })
  ∧ (e = .rxByte → ∃ b, s.rx = b :: t.rx ∧
      t = { s with
        phase := .idle, done := true, status := .checksumMismatch, inbox := rest
        buf := s.buf.setIfInBounds s.cnt.val b, cnt := s.cnt + 1, rx := t.rx })
  ∧ (e = .rxTimeout ∨ e = .ioFault ∨ e = .rxByte ∨ ∃ f, e = .instr (.frame f))

theorem endedByError_sensorError {s : State} {e : Input} {rest : List Input} (he : e = .rxTimeout ∨ e = .ioFault) :
    EndedByError s (complete .sensorError { s with inbox := rest }) e rest := by
  rw [complete_error (by decide)]
  refine ⟨rfl, fun _ => rfl, fun hbyte => ?_, ?_⟩
  · rcases he with rfl | rfl <;> exact Input.noConfusion hbyte
  · rcases he with rfl | rfl <;> simp

/-- The verdict is OK or ChecksumMismatch. -/
theorem verdict_of_ne_ok {s : State} (h : verdict s ≠ .ok) : verdict s = .checksumMismatch := by
  unfold verdict at h ⊢
  split at h
  · exact absurd rfl h
  · rename_i hfail
    exact if_neg hfail

/-- A byte ends an operation with an error only where it is the last of a payload that fails the check. -/
theorem endedByError_rxByte {s : State} {b : Byte} {bs : List Byte} {rest : List Input} (hrx : s.rx = b :: bs)
    (ha : acceptsByte s = true) (hidle : (rxByte b { s with rx := bs, inbox := rest }).phase = .idle)
    (hst : (rxByte b { s with rx := bs, inbox := rest }).status ≠ .ok) :
    EndedByError s (rxByte b { s with rx := bs, inbox := rest }) .rxByte rest := by
  rcases rxByte_cases b { s with rx := bs, inbox := rest } ha with
    ⟨_, _, _, ht⟩ | ⟨hp, _, ht⟩ | ⟨hp, _, ht⟩ | ⟨_, _, ht⟩ <;> rw [ht] at hidle hst ⊢
  · exact Phase.noConfusion hidle
  · exact absurd (hp.symm.trans hidle) (by decide)
  · exact absurd (hp.symm.trans hidle) (by decide)
  · rw [verdict_of_ne_ok hst, complete_error (by decide)]
    exact ⟨rfl, by simp, fun _ => ⟨b, hrx, rfl⟩, .inr (.inr (.inl rfl))⟩

/-- A queue that ends an operation with an error has kept `MODE`, `RVALID` and the reading. -/
theorem endedByError_frame {s : State} {f bs : List Byte} {rest : List Input} (hp : s.phase ≠ .idle)
    (hidle : (handOver bs { s with inbox := rest }).phase = .idle)
    (hst : (handOver bs { s with inbox := rest }).status ≠ .ok) :
    EndedByError s (handOver bs { s with inbox := rest }) (.instr (.frame f)) rest := by
  have hframe := handOver_receptionFrame bs { s with inbox := rest }
  obtain ⟨hdone, hkept⟩ := (handOver_resultsOf bs (s := { s with inbox := rest }) hp).ended hidle
  obtain ⟨hv, hm, hr⟩ := hkept hst
  rw [ReceptionFrame, hidle, hdone, hv, hm, hr] at hframe
  exact ⟨hframe, by simp, by simp, .inr (.inr (.inr ⟨f, rfl⟩))⟩

/-- Only timeouts, faults, received bytes and frames end an operation with an error. -/
theorem step_endedByError {s t : State} {e : Input} {rest : List Input} (hin : s.inbox = e :: rest) (hne : e ≠ .reset)
    (hstep : step s = .next t) (hp : s.phase ≠ .idle) (hidle : t.phase = .idle) (hst : t.status ≠ .ok) :
    EndedByError s t e rest := by
  have htake := take_of_step hin hstep
  let u : State := { s with inbox := rest }
  have kept {v : State} (h : v = u) (hv : v.phase = .idle) : False := hp ((congrArg State.phase h).symm.trans hv)
  cases e with
  | instr w =>
    cases w with
    | host h => exact absurd (step_hostWord_next hin hstep).1 hp
    | frame f =>
      rcases step_frame_next hin hstep with hsent | rfl | ⟨_, rfl⟩
      · exact absurd hsent.idle_before hp
      · exact absurd hidle hp
      · exact endedByError_frame hp hidle hst
  | txAccept =>
    obtain rfl := Host.Outcome.next.inj htake
    rcases txAccept_cases u with ⟨htx, _, ⟨_, ht⟩ | ⟨_, _, ht⟩ | ⟨_, _, ht⟩⟩ | ⟨_, ht⟩
    · exact absurd (htx.symm.trans ((congrArg State.phase ht).symm.trans hidle)) (by decide)
    · exact Phase.noConfusion ((congrArg State.phase ht).symm.trans hidle)
    · exact absurd (congrArg State.status ht) hst
    · exact (kept ht hidle).elim
  | waitDone =>
    obtain rfl := Host.Outcome.next.inj htake
    rcases waitDone_cases u with ⟨_, ht⟩ | ⟨_, ht⟩
    · exact Phase.noConfusion ((congrArg State.phase ht).symm.trans hidle)
    · exact (kept ht hidle).elim
  | rxByte =>
    obtain rfl := Host.Outcome.next.inj htake
    rcases takeRxByte_cases u with ⟨b, bs, hrx, ha, ht⟩ | ⟨_, ht⟩
    · rw [ht] at hidle hst ⊢
      exact endedByError_rxByte hrx ha hidle hst
    · exact (kept ht hidle).elim
  | rxTimeout =>
    obtain rfl := Host.Outcome.next.inj htake
    rcases takeRxTimeout_cases u with ⟨_, _, ht⟩ | ⟨_, ht⟩
    · rw [ht]
      exact endedByError_sensorError (.inl rfl)
    · exact (kept ht hidle).elim
  | ioFault =>
    obtain rfl := Host.Outcome.next.inj htake
    rcases ioFault_cases u with ⟨_, ht⟩ | ⟨_, ht⟩
    · rw [ht]
      exact endedByError_sensorError (.inr rfl)
    · exact (kept ht hidle).elim
  | reset => exact absurd rfl hne
  | sensorByte b =>
    obtain rfl := Host.Outcome.next.inj htake
    exact absurd hidle hp

/-- In `IDLE` only a host word brings UsageError about, the rejected SET_MODE. -/
theorem step_usageError {s t : State} {w : Encoded} {rest : List Input} (hp : s.phase = .idle)
    (hin : s.inbox = .instr w :: rest) (hstep : step s = .next t) (hs : s.status ≠ .usageError)
    (ht : t.status = .usageError) :
    t = { s with done := true, status := .usageError, inbox := rest, rvalid := false, op := .setMode } := by
  cases w with
  | host h =>
    obtain ⟨_, rfl⟩ := step_hostWord_next hin hstep
    obtain ⟨hop, h0, h1⟩ := (hostStart_status_usageError_iff _ _ _).mp ht
    rw [hop]
    exact hostStart_setMode_rejected (s := { s with inbox := rest }) hp h0 h1
  | frame f =>
    rcases step_frame_next hin hstep with hsent | rfl | ⟨_, rfl⟩
    · exact absurd (hsent.status_ok.symm.trans ht) (by decide)
    · exact absurd ht hs
    · rw [handOver_of_not_accepts (acceptsByte_of_not_receiving (s := { s with inbox := rest }) (.inl hp))] at ht
      exact absurd ht hs

/-- Settles O49: the two ways an error is entered, what no error writes, and the steps that end in one. -/
theorem errorChangesOnlyTheResult : Obligations.ErrorChangesOnlyTheResult := by
  unfold Obligations.ErrorChangesOnlyTheResult
  exact ⟨fun s st hst => complete_error hst s, fun s => rfl,
    fun s t e rest hin hne hstep _ hst => step_error_keeps_results hin hne hstep hst,
    fun s t e rest hin hne hstep hp hidle hst => step_endedByError hin hne hstep hp hidle hst,
    fun s t w rest hp hin hstep hs ht => step_usageError hp hin hstep hs ht⟩

end Sys2Proof.Machine

namespace Sys2Proof.Machine

/-! ### The synchronizer as a function of its input (40_frame_sync.md rule R120)

`SYNC` looks for the first marker in the whole input; the block's steps remember one bit, `PREV42`. `syncFrom` is `SYNC` with
that bit as a parameter, so that it can be followed along the input, and `captureSpec` is what `SYNC` does behind the
marker. -/

/-- `n` inputs were consumed before. -/
def SyncResult.after (n : Nat) (r : SyncResult × Nat) : SyncResult × Nat := (r.1, n + r.2)

/-- `SYNC` behind the marker: `l` bytes are captured. -/
def captureSpec (l : Nat) (es : List SyncEvent) : SyncResult × Nat :=
  match firstFailure (es.take l) with
  | some j => (.sensorError, j + 1)
  | none =>
    if (es.take l).length = l then (.payload ((es.take l).filterMap SyncEvent.byte?), l)
    else (.stillCapturing, es.length)

/-- A marker ends at index `k`, its first byte perhaps the one consumed before the input, which was 0x42 if `prev`. -/
def markerEndsFrom (prev : Bool) (es : List SyncEvent) (k : Nat) : Bool :=
  (if k = 0 then prev else es[k - 1]? == some (.byte Config.mark0)) && es[k]? == some (.byte Config.mark1)
    && (es.take (k + 1)).all (fun e => e.byte?.isSome)

/-- `SYNC` in the middle of a hunt. -/
def syncFrom (prev : Bool) (l : Nat) (es : List SyncEvent) : SyncResult × Nat :=
  match (List.range es.length).find? (markerEndsFrom prev es) with
  | none =>
    match firstFailure es with
    | some j => (.sensorError, j + 1)
    | none => (.stillHunting, es.length)
  | some k => SyncResult.after (k + 1) (captureSpec l (es.drop (k + 1)))

/-! #### `SYNC` is `syncFrom` at the start of a hunt -/

theorem markerEndsFrom_false (es : List SyncEvent) : markerEndsFrom false es = markerEndsAt es := by
  funext k
  cases k with
  | zero => simp [markerEndsFrom, markerEndsAt]
  | succ k => simp [markerEndsFrom, markerEndsAt]

theorem syncSpec_eq_syncFrom (l : Nat) (es : List SyncEvent) : syncSpec l es = syncFrom false l es := by
  unfold syncSpec syncFrom
  rw [markerEndsFrom_false]
  cases hfind : (List.range es.length).find? (markerEndsAt es) with
  | none => rfl
  | some k =>
    have hk : k < es.length := List.mem_range.mp (List.mem_of_find?_eq_some hfind)
    have hrest : es.length = k + 1 + (es.drop (k + 1)).length := by
      rw [List.length_drop]
      omega
    simp only [captureSpec, SyncResult.after]
    cases firstFailure ((es.drop (k + 1)).take l) with
    | some j => rfl
    | none =>
      simp only
      split
      · rfl
      · rw [hrest]

/-! #### `captureSpec` along the input -/

theorem captureSpec_nil {l : Nat} (h : 0 < l) : captureSpec l [] = (.stillCapturing, 0) := by
  simp [captureSpec, firstFailure, h.ne]

theorem captureSpec_zero (es : List SyncEvent) : captureSpec 0 es = (.payload [], 0) := by
  simp [captureSpec, firstFailure]

theorem captureSpec_failure {e : SyncEvent} (he : e.byte? = none) (l : Nat) (es : List SyncEvent) :
    captureSpec (l + 1) (e :: es) = (.sensorError, 1) := by
  simp [captureSpec, firstFailure, List.findIdx?_cons, he]

/-- One more byte in front of what is captured. -/
def SyncResult.captured (b : Byte) (r : SyncResult × Nat) : SyncResult × Nat :=
  match r with
  | (.payload bs, n) => (.payload (b :: bs), n + 1)
  | (.sensorError, n) => (.sensorError, n + 1)
  | (.stillHunting, n) => (.stillHunting, n + 1)
  | (.stillCapturing, n) => (.stillCapturing, n + 1)

theorem firstFailure_byte (b : Byte) (es : List SyncEvent) :
    firstFailure (.byte b :: es) = (firstFailure es).map (· + 1) := by
  simp [firstFailure, List.findIdx?_cons, SyncEvent.byte?]

theorem firstFailure_failure {e : SyncEvent} (he : e.byte? = none) (es : List SyncEvent) :
    firstFailure (e :: es) = some 0 := by
  simp [firstFailure, List.findIdx?_cons, he]

theorem captureSpec_byte (l : Nat) (b : Byte) (es : List SyncEvent) :
    captureSpec (l + 1) (.byte b :: es) = SyncResult.captured b (captureSpec l es) := by
  simp only [captureSpec, List.take_succ_cons, firstFailure_byte]
  cases firstFailure (es.take l) with
  | some j => rfl
  | none =>
    by_cases hl : (es.take l).length = l
    · simp [hl, SyncResult.captured, SyncEvent.byte?]
    · have hl' : (es.take l).length + 1 ≠ l + 1 := fun h => hl (Nat.succ.inj h)
      simp only [Option.map_none, List.length_cons, if_neg hl]
      exact if_neg hl'

/-! #### `syncFrom` along the input -/

theorem byte_beq_byte (a b : Byte) : (SyncEvent.byte a == SyncEvent.byte b) = (a == b) := by
  rw [Bool.eq_iff_iff]
  simp

theorem markerEndsFrom_zero (prev : Bool) (b : Byte) (es : List SyncEvent) :
    markerEndsFrom prev (.byte b :: es) 0 = (prev && b == Config.mark1) := by
  simp [markerEndsFrom, SyncEvent.byte?, byte_beq_byte]

theorem markerEndsFrom_succ (prev : Bool) (b : Byte) (es : List SyncEvent) (k : Nat) :
    markerEndsFrom prev (.byte b :: es) (k + 1) = markerEndsFrom (b == Config.mark0) es k := by
  cases k with
  | zero => simp [markerEndsFrom, SyncEvent.byte?, byte_beq_byte]
  | succ k => simp [markerEndsFrom, SyncEvent.byte?]

theorem markerEndsFrom_failure {e : SyncEvent} (he : e.byte? = none) (prev : Bool) (es : List SyncEvent) (k : Nat) :
    markerEndsFrom prev (e :: es) k = false := by
  simp [markerEndsFrom, he]

theorem syncFrom_failure {e : SyncEvent} (he : e.byte? = none) (prev : Bool) (l : Nat) (es : List SyncEvent) :
    syncFrom prev l (e :: es) = (.sensorError, 1) := by
  have hfind : (List.range (e :: es).length).find? (markerEndsFrom prev (e :: es)) = none :=
    List.find?_eq_none.mpr fun k _ => by simp [markerEndsFrom_failure he]
  simp only [syncFrom, hfind, firstFailure_failure he]

/-- The first marker of an input whose first event is a byte. -/
theorem find?_markerEndsFrom_byte (prev : Bool) (b : Byte) (es : List SyncEvent) :
    (List.range (SyncEvent.byte b :: es).length).find? (markerEndsFrom prev (.byte b :: es)) =
      if prev && b == Config.mark1 then some 0
      else ((List.range es.length).find? (markerEndsFrom (b == Config.mark0) es)).map (· + 1) := by
  have hsucc : markerEndsFrom prev (.byte b :: es) ∘ Nat.succ = markerEndsFrom (b == Config.mark0) es :=
    funext (markerEndsFrom_succ prev b es)
  rw [List.length_cons, List.range_succ_eq_map, List.find?_cons, markerEndsFrom_zero, List.find?_map, hsucc]
  cases prev && b == Config.mark1 <;> rfl

theorem syncFrom_marker {prev : Bool} {b : Byte} (hprev : prev = true) (hb : b = Config.mark1) (l : Nat)
    (es : List SyncEvent) : syncFrom prev l (.byte b :: es) = SyncResult.after 1 (captureSpec l es) := by
  have hfind := find?_markerEndsFrom_byte prev b es
  rw [if_pos (by simp [hprev, hb])] at hfind
  simp only [syncFrom, hfind]
  rfl

theorem syncFrom_no_marker {prev : Bool} {b : Byte} (h : ¬ (prev = true ∧ b = Config.mark1)) (l : Nat)
    (es : List SyncEvent) :
    syncFrom prev l (.byte b :: es) = SyncResult.after 1 (syncFrom (b == Config.mark0) l es) := by
  have hfind := find?_markerEndsFrom_byte prev b es
  rw [if_neg (by simpa using h)] at hfind
  simp only [syncFrom, hfind, firstFailure_byte]
  cases (List.range es.length).find? (markerEndsFrom (b == Config.mark0) es) with
  | none =>
    cases firstFailure es with
    | none => simp [SyncResult.after, Nat.add_comm]
    | some j => simp [SyncResult.after, Nat.add_comm]
  | some k =>
    simp [SyncResult.after]
    omega

/-! #### The block's steps in `CAPTURE` -/

theorem syncRun_of_idle (es : List SyncEvent) {s : State} (hp : s.phase = .idle) : syncRun es s = (s, 0) := by
  cases es <;> simp [syncRun, rxReady, hp]

theorem syncRun_cons (e : SyncEvent) (es : List SyncEvent) {s : State} (hp : s.phase = .hunt ∨ s.phase = .capture) :
    syncRun (e :: es) s = ((syncRun es (syncStep e s)).1, (syncRun es (syncStep e s)).2 + 1) := by
  have hready : rxReady s = true := by rcases hp with hp | hp <;> simp [rxReady, hp]
  simp [syncRun, hready]

/-- A timeout or a fault ends the reception with SensorError. -/
theorem syncStep_failure {e : SyncEvent} (he : e.byte? = none) {s : State} (hp : s.phase = .hunt ∨ s.phase = .capture) :
    syncStep e s = complete .sensorError s := by
  cases e with
  | byte b => simp [SyncEvent.byte?] at he
  | timeout => rcases hp with hp | hp <;> simp [syncStep, rxTimeout, hp]
  | fault => exact ioFault_transfer (.inr hp)

theorem eq_byte_of_byte? {e : SyncEvent} {b : Byte} (he : e.byte? = some b) : e = .byte b := by
  cases e with
  | byte a => exact congrArg SyncEvent.byte (Option.some.inj he)
  | timeout => simp [SyncEvent.byte?] at he
  | fault => simp [SyncEvent.byte?] at he

theorem syncRun_failure {e : SyncEvent} (he : e.byte? = none) (es : List SyncEvent) {s : State}
    (hp : s.phase = .hunt ∨ s.phase = .capture) : syncRun (e :: es) s = (complete .sensorError s, 1) := by
  rw [syncRun_cons e es hp, syncStep_failure he hp, syncRun_of_idle es rfl]

/-- The run from `u` in `CAPTURE` ends as the result `r` says. -/
def CaptureEnd (u : State) (r : SyncResult) (t : State) : Prop :=
  match r with
  | .payload bs => t = endCapture bs u ∧ u.cnt.val + bs.length = lenBytes u.len
  | .sensorError => ∃ bs, t = complete .sensorError (storeBytes bs u)
  | .stillHunting => False
  | .stillCapturing => t.phase = .capture

/-- What was captured behind the byte `b` was captured with it. -/
theorem CaptureEnd.cons {u t : State} {r : SyncResult × Nat} {b : Byte} (hcnt : u.cnt.val < 30)
    (h : CaptureEnd (storeByte b u) r.1 t) : CaptureEnd u (SyncResult.captured b r).1 t := by
  obtain ⟨r, n⟩ := r
  cases r with
  | payload bs =>
    obtain ⟨ht, hlen⟩ := h
    rw [storeByte_cnt_val b hcnt] at hlen
    exact ⟨ht, by rw [List.length_cons, Nat.add_comm bs.length, ← Nat.add_assoc]; exact hlen⟩
  | sensorError =>
    obtain ⟨bs, ht⟩ := h
    exact ⟨b :: bs, ht⟩
  | stillHunting => exact h.elim
  | stillCapturing => exact h

theorem captured_snd (b : Byte) (r : SyncResult × Nat) : (SyncResult.captured b r).2 = r.2 + 1 := by
  obtain ⟨r, n⟩ := r
  cases r <;> rfl

/-- In `CAPTURE`, with `l` bytes missing, the block's steps are `captureSpec l`. -/
theorem syncRun_capture (es : List SyncEvent) {u : State} {l : Nat} (hp : u.phase = .capture) (hl : 0 < l)
    (hlen : u.cnt.val + l = lenBytes u.len) :
    (syncRun es u).2 = (captureSpec l es).2 ∧ CaptureEnd u (captureSpec l es).1 (syncRun es u).1 := by
  induction es generalizing u l with
  | nil =>
    rw [captureSpec_nil hl]
    exact ⟨rfl, hp⟩
  | cons e es ih =>
    obtain ⟨l, rfl⟩ := Nat.exists_eq_add_of_le' hl
    cases he : e.byte? with
    | none =>
      rw [captureSpec_failure he, syncRun_failure he es (.inr hp)]
      exact ⟨rfl, [], rfl⟩
    | some b =>
      obtain rfl := eq_byte_of_byte? he
      have hle := lenBytes_le u.len
      rw [captureSpec_byte, captured_snd, syncRun_cons _ es (.inr hp)]
      rcases Nat.eq_zero_or_pos l with rfl | hl'
      · have hlast : syncStep (.byte b) u = endCapture [b] u := rxByte_last b hp hlen
        rw [hlast, syncRun_of_idle es rfl, captureSpec_zero]
        exact ⟨rfl, rfl, hlen⟩
      · have hstore : syncStep (.byte b) u = storeByte b u := rxByte_store b hp (by omega)
        rw [hstore]
        have hcnt : (storeByte b u).cnt.val + l = lenBytes (storeByte b u).len := by
          rw [storeByte_cnt_val b (by omega)]
          exact Eq.trans (by omega) hlen
        obtain ⟨hn, hend⟩ := ih (u := storeByte b u) hp hl' hcnt
        exact ⟨congrArg (· + 1) hn, hend.cons (by omega)⟩

/-! #### The block's steps in `HUNT` -/

/-- The run from `s` in `HUNT` ends as the result `r` says. -/
def SyncEnd (s : State) (r : SyncResult) (t : State) : Prop :=
  match r with
  | .payload bytes =>
      t.phase = .idle ∧ (capturedPayload t.buf s.len).toList = bytes
      ∧ t.status = (if check (capturedPayload t.buf s.len) then .ok else .checksumMismatch)
  | .sensorError =>
      t.phase = .idle ∧ t.status = .sensorError ∧ t.reading = s.reading ∧ t.rvalid = s.rvalid ∧ t.mode = s.mode
  | .stillHunting => t.phase = .hunt ∧ t.buf = s.buf
  | .stillCapturing => t.phase = .capture

/-- What follows the marker, seen from the hunt. -/
theorem CaptureEnd.syncEnd {s t : State} {r : SyncResult} (h : CaptureEnd (enterCapture s) r t) : SyncEnd s r t := by
  cases r with
  | payload bs =>
    obtain ⟨rfl, hlen⟩ := h
    have hlen : bs.length = lenBytes s.len := (Nat.zero_add _).symm.trans hlen
    rw [endCapture_eq rfl]
    exact ⟨rfl, capturedPayload_storeBytes rfl hlen, rfl⟩
  | sensorError =>
    obtain ⟨bs, rfl⟩ := h
    rw [complete_error (by decide), storeBytes_eq]
    exact ⟨rfl, rfl, rfl, rfl, rfl⟩
  | stillHunting => exact h.elim
  | stillCapturing => exact h

/-- In `HUNT` the block's steps are `SYNC` with `PREV42` for the byte before the input. -/
theorem syncRun_hunt (es : List SyncEvent) {s : State} (hp : s.phase = .hunt) :
    (syncRun es s).2 = (syncFrom s.prev42 (lenBytes s.len) es).2
      ∧ SyncEnd s (syncFrom s.prev42 (lenBytes s.len) es).1 (syncRun es s).1 := by
  induction es generalizing s with
  | nil => exact ⟨rfl, hp, rfl⟩
  | cons e es ih =>
    cases he : e.byte? with
    | none =>
      rw [syncFrom_failure he, syncRun_failure he es (.inl hp), complete_error (by decide)]
      exact ⟨rfl, rfl, rfl, rfl, rfl, rfl⟩
    | some b =>
      obtain rfl := eq_byte_of_byte? he
      rw [syncRun_cons _ es (.inl hp)]
      by_cases hmark : s.prev42 = true ∧ b = Config.mark1
      · obtain ⟨hprev, hb⟩ := hmark
        have hstep : syncStep (.byte b) s = enterCapture s := rxByte_marker hp hprev hb
        obtain ⟨hn, hend⟩ := syncRun_capture es (u := enterCapture s) rfl (lenBytes_pos s.len) (Nat.zero_add _)
        rw [syncFrom_marker hprev hb, hstep]
        exact ⟨(congrArg (· + 1) hn).trans (Nat.add_comm _ _), hend.syncEnd⟩
      · have hstep : syncStep (.byte b) s = { s with prev42 := b == Config.mark0 } := rxByte_no_marker hp hmark
        obtain ⟨hn, hend⟩ := ih (s := { s with prev42 := b == Config.mark0 }) hp
        rw [syncFrom_no_marker hmark, hstep]
        exact ⟨(congrArg (· + 1) hn).trans (Nat.add_comm _ _), hend⟩

/-- Settles O48: at the start of a hunt no byte is remembered, so the block's steps are `SYNC` itself. -/
theorem synchronizerIsTheFunctionOfItsInput : Obligations.SynchronizerIsTheFunctionOfItsInput := by
  unfold Obligations.SynchronizerIsTheFunctionOfItsInput
  intro s es hp hprev
  rw [syncSpec_eq_syncFrom, ← hprev]
  exact syncRun_hunt es hp

end Sys2Proof.Machine
